-- ==== Sys2Proof/Word.lean ====
section
/-! DEFINITION. The word types of the device and the RGB triple (spec 00_scope.md R13, R15). -/

namespace Sys2Proof

/-- A `u8` (R13). -/
abbrev Byte := BitVec 8

/-- A `u32` (R13): a register write's address and value, and an output pixel `0xAARRGGBB` (R15). -/
abbrev Word := BitVec 32

/-- A virtual time, a gain or a DAC level, in `ℚ` (R13). -/
abbrev Time := Rat

/-- An RGB triple, each channel a `u8` (R15). -/
structure Rgb where
  r : Byte
  g : Byte
  b : Byte
  deriving DecidableEq, Repr, Inhabited

end Sys2Proof
end

