-- ==== Sys2Proof/Config.lean ====
section
/-! DEFINITION. What is fixed at construction: the variant (00_scope.md R2) and the implementation parameters (R12), as
plain data, and the two values the spec leaves open. The default values of the parameters are in Machine/Defaults.lean. -/

namespace Sys2Proof

/-- The three variants of the chip family (R2). -/
inductive Variant where
  | gen1
  | gen1Lcd
  | gen2
  deriving DecidableEq, Repr, Inhabited

/-- The bit depths the spec gives a meaning, 1, 2, 4 and 8 bits per pixel (R8, R12). -/
inductive Bpp where
  | b1
  | b2
  | b4
  | b8
  deriving DecidableEq, Repr, Inhabited

/-- One defined entry of the pixel clock table `PIXCLK(b, s)` (R12, R71). -/
structure PixClkEntry where
  bpp : Bpp
  pcs : BitVec 2
  hz  : Nat
  deriving DecidableEq, Repr

/-- The implementation parameters of R12 that have a value or a replaceable default. The spec's functions of a finite
argument are tables, so that a configuration is plain data (log 3, 13). `MAIN_BASE`, `N_MAIN`, `BORDER_BASE`,
`CURSOR_BASE` and `N_PAL` are functions of the variant (Machine/Operands.lean). -/
structure Config where
  /-- the variant, R2 -/
  variant   : Variant
  /-- `VRAM_SIZE = 2 ^ vramBits`, at most `2 ^ 21` -/
  vramBits  : Nat
  /-- `CRAM_SIZE = 2 ^ cramBits`, at most `2 ^ 15` -/
  cramBits  : Nat
  /-- `BPP_SET`, never empty (R68) -/
  bppSet    : List Bpp
  /-- `HCONV(b)` at index `log2 b` -/
  hconv     : Vector Nat 4
  /-- the defined entries of `PIXCLK(b, s)` -/
  pixclk    : List PixClkEntry
  /-- `CRTC_BITS` -/
  crtcBits  : Nat
  /-- `CURSOR_W` -/
  cursorW   : Nat
  /-- `LUT(s)`, 256 signed 16-bit entries -/
  lut       : Vector (BitVec 16) 256
  /-- `PAN_L(p)` -/
  panL      : Vector Rat 8
  /-- `PAN_R(p)` -/
  panR      : Vector Rat 8
  /-- `G_IN` -/
  gIn       : Rat
  /-- `SOUND_DIV` -/
  soundDiv  : Nat
  /-- `SOUND_UNIT`, in seconds -/
  soundUnit : Rat
  /-- `MAIN_MAP(i)`, for `i` in 0 to 255 -/
  mainMap   : Vector Nat 256
  deriving DecidableEq, Repr

/-- `LCD_SHAPE_LCD : RGB → RGB`, the output shaping of GEN1_LCD, an OPEN parameter (R12, R99, D22): a free value, log 11. -/
opaque Config.lcdShapeLcd : Rgb → Rgb

/-- Which of the steps enabled at one virtual time is taken first, for the n-th such tie of a run (R125, R137, R154, D29):
a free value, log 6. It is read modulo the number of enabled steps. -/
opaque Config.tieChoice : Nat → Nat

end Sys2Proof
end

