-- ==== Sys2Proof/Syntax.lean ====
section
/-! DEFINITION. The instructions: the device's entry points (00_scope.md R11), one constructor per row of
spec/opcode_table.json. A register write is held decoded (R52) with its whole `value`; the fields of the value are taken
out in Machine/Operands.lean (R54-R60). -/

namespace Sys2Proof

/-- A host-owned output surface of `width × height` pixels, row by row from the top, each row from the left (R51, log 16). -/
structure Surface where
  width  : Nat
  height : Nat
  pixels : List Word
  deriving DecidableEq, Repr

/-- The clip rectangle `(cx, cy, cw, ch)` in `ℤ` (R51). -/
structure Clip where
  cx : Int
  cy : Int
  cw : Int
  ch : Int
  deriving DecidableEq, Repr

/-- The instructions, in the order of spec/opcode_table.json. -/
inductive Instr where
  /-- PAL_MAIN, main palette entry i (R102) -/
  | palMain (i : BitVec 4) (value : Word)
  /-- BORDER, cursor palette slot 0 (R103) -/
  | border (value : Word)
  /-- CURPAL1, cursor colour 1 (R103) -/
  | curpal1 (value : Word)
  /-- CURPAL2, cursor colour 2 (R103) -/
  | curpal2 (value : Word)
  /-- CURPAL3, cursor colour 3 (R103) -/
  | curpal3 (value : Word)
  /-- PAL8, 8bpp palette data, GEN2 only (R104) -/
  | pal8 (value : Word)
  /-- PALIDX, palette write index, GEN2 only (R105) -/
  | palidx (value : Word)
  /-- HOLE, the words 0x50 and 0x54 on GEN1 and GEN1_LCD (R67) -/
  | holeGen1 (value : Word)
  /-- HOLE, the words 0x58 and 0x5C on every variant (R67) -/
  | hole (value : Word)
  /-- STEREO, pan of channel ch (R117) -/
  | stereo (ch : BitVec 3) (value : Word)
  /-- CRTC.HCR, horizontal total (R80) -/
  | crtcHcr (value : Word)
  /-- CRTC.HSWR, horizontal sync width (R81) -/
  | crtcHswr (value : Word)
  /-- CRTC.HBSR, horizontal border start (R82) -/
  | crtcHbsr (value : Word)
  /-- CRTC.HBER, horizontal border end (R83) -/
  | crtcHber (value : Word)
  /-- CRTC.HDSR, horizontal display start (R84) -/
  | crtcHdsr (value : Word)
  /-- CRTC.HDER, horizontal display end (R85) -/
  | crtcHder (value : Word)
  /-- CRTC.HCSR, horizontal cursor start (R86) -/
  | crtcHcsr (value : Word)
  /-- CRTC.HCER, horizontal cursor end (R87) -/
  | crtcHcer (value : Word)
  /-- CRTC.VCR, vertical total (R88) -/
  | crtcVcr (value : Word)
  /-- CRTC.VSWR, vertical sync width (R89) -/
  | crtcVswr (value : Word)
  /-- CRTC.VBSR, vertical border start (R90) -/
  | crtcVbsr (value : Word)
  /-- CRTC.VBER, vertical border end (R91) -/
  | crtcVber (value : Word)
  /-- CRTC.VDSR, vertical display start (R92) -/
  | crtcVdsr (value : Word)
  /-- CRTC.VDER, vertical display end (R93) -/
  | crtcVder (value : Word)
  /-- CRTC.VCSR, vertical cursor start (R94) -/
  | crtcVcsr (value : Word)
  /-- CRTC.VCER, vertical cursor end (R95) -/
  | crtcVcer (value : Word)
  /-- SFR, sound-frequency latch (R119) -/
  | sfr (value : Word)
  /-- CTRL, control word (R96) -/
  | ctrl (value : Word)
  /-- WRITE_VRAM (R106) -/
  | writeVram (offset byte : Nat)
  /-- WRITE_CRAM (R107) -/
  | writeCram (offset byte : Nat)
  /-- WRITE_DAC (R120) -/
  | writeDac (channel sample : Nat)
  /-- CLEAR_DAC (R121) -/
  | clearDac (channel : Nat)
  /-- DAC_LEVEL (R122) -/
  | dacLevel (channel : Nat)
  /-- FLYBACK_R (R133) -/
  | flybackR
  /-- RENDER (R112) -/
  | render (surface : Surface) (clip : Clip)
  /-- RESET (R145) -/
  | reset
  /-- VIDEO_FIRE, called by the scheduler (R131) -/
  | videoFire
  /-- SOUND_FIRE, called by the scheduler (R132) -/
  | soundFire
  deriving DecidableEq, Repr

/-- The instruction's mnemonic in spec/opcode_table.json. -/
def Instr.mnemonic : Instr → String
  | .palMain _ _ => "PAL_MAIN"
  | .border _ => "BORDER"
  | .curpal1 _ => "CURPAL1"
  | .curpal2 _ => "CURPAL2"
  | .curpal3 _ => "CURPAL3"
  | .pal8 _ => "PAL8"
  | .palidx _ => "PALIDX"
  | .holeGen1 _ => "HOLE"
  | .hole _ => "HOLE"
  | .stereo _ _ => "STEREO"
  | .crtcHcr _ => "CRTC.HCR"
  | .crtcHswr _ => "CRTC.HSWR"
  | .crtcHbsr _ => "CRTC.HBSR"
  | .crtcHber _ => "CRTC.HBER"
  | .crtcHdsr _ => "CRTC.HDSR"
  | .crtcHder _ => "CRTC.HDER"
  | .crtcHcsr _ => "CRTC.HCSR"
  | .crtcHcer _ => "CRTC.HCER"
  | .crtcVcr _ => "CRTC.VCR"
  | .crtcVswr _ => "CRTC.VSWR"
  | .crtcVbsr _ => "CRTC.VBSR"
  | .crtcVber _ => "CRTC.VBER"
  | .crtcVdsr _ => "CRTC.VDSR"
  | .crtcVder _ => "CRTC.VDER"
  | .crtcVcsr _ => "CRTC.VCSR"
  | .crtcVcer _ => "CRTC.VCER"
  | .sfr _ => "SFR"
  | .ctrl _ => "CTRL"
  | .writeVram _ _ => "WRITE_VRAM"
  | .writeCram _ _ => "WRITE_CRAM"
  | .writeDac _ _ => "WRITE_DAC"
  | .clearDac _ => "CLEAR_DAC"
  | .dacLevel _ => "DAC_LEVEL"
  | .flybackR => "FLYBACK_R"
  | .render _ _ => "RENDER"
  | .reset => "RESET"
  | .videoFire => "VIDEO_FIRE"
  | .soundFire => "SOUND_FIRE"

end Sys2Proof
end

