-- ==== Sys2Proof/WellFormed.lean ====
section
/-! DEFINITION. Well-formed instructions of a variant, and well-formed configurations. -/

namespace Sys2Proof

/-- A surface of `Ws × Hs` pixels holds that many (R51). -/
def Surface.wf (sf : Surface) : Bool := sf.pixels.length == sf.width * sf.height

/-- The instruction exists on the variant (opcode_table.json `variants`, R52, R53), and a surface it carries is well formed.
Every other operand is legal at every value of its type (R61, R134). -/
def Instr.wf (v : Variant) : Instr → Bool
  | .pal8 _ => v == .gen2
  | .palidx _ => v == .gen2
  | .holeGen1 _ => v != .gen2
  | .render sf _ => sf.wf
  | .palMain _ _ | .border _ | .curpal1 _ | .curpal2 _ | .curpal3 _ | .hole _ | .stereo _ _ => true
  | .crtcHcr _ | .crtcHswr _ | .crtcHbsr _ | .crtcHber _ | .crtcHdsr _ | .crtcHder _ | .crtcHcsr _ | .crtcHcer _ => true
  | .crtcVcr _ | .crtcVswr _ | .crtcVbsr _ | .crtcVber _ | .crtcVdsr _ | .crtcVder _ | .crtcVcsr _ | .crtcVcer _ => true
  | .sfr _ | .ctrl _ => true
  | .writeVram _ _ | .writeCram _ _ | .writeDac _ _ | .clearDac _ | .dacLevel _ | .flybackR => true
  | .reset | .videoFire | .soundFire => true

/-- The size of the main image region of the palette, `N_MAIN`, bounds `MAIN_MAP` (R12, R100). -/
def Config.mainMapWf (c : Config) : Bool :=
  c.mainMap.toList.all (· < (if c.variant = .gen2 then 256 else 16))

/-- The limits R12, R21 and R68 set on the parameters: buffer sizes at most `2 ^ 21` and `2 ^ 15`, a non-empty `BPP_SET`,
one entry of `PIXCLK` per `(b, s)`, a CRTC field that fits its 32-bit slot, and `MAIN_MAP` inside the main region. -/
def Config.wf (c : Config) : Bool :=
  decide (c.vramBits ≤ 21) && decide (c.cramBits ≤ 15) && !c.bppSet.isEmpty
    && decide ((c.pixclk.map fun e => (e.bpp, e.pcs)).Nodup) && decide (c.crtcBits ≤ 32) && c.mainMapWf

end Sys2Proof
end

