-- ==== Sys2Proof/Decode.lean ====
section
/-! DEFINITION. The decoder and the encoder of 30_encoding.md: the register window's address map (R50, R52, R53), the typed
calls of format PORT (R51), the byte frame of a register write (log 9), and `opcodeRows`, spec/opcode_table.json's own
match and mask of each REGW row. -/

namespace Sys2Proof

/-- What a host may call (R11 (a) to (f) and (h)), before decoding: a register write of format REGW (R50), or a typed call of
format PORT (R51). The two timer fires are no host call (R9). -/
inductive Call where
  | write (address value : Word)
  | writeVram (offset byte : Nat)
  | writeCram (offset byte : Nat)
  | writeDac (channel sample : Nat)
  | clearDac (channel : Nat)
  | dacLevel (channel : Nat)
  | flybackR
  | render (surface : Surface) (clip : Clip)
  | reset
  deriving DecidableEq, Repr

/-- `A = address[7:0] & 0xFC` (R38, R50). -/
def windowOffset (address : Word) : Byte := address.extractLsb' 0 8 &&& 0xFC#8

/-- The write of CRTC slot `k` (R52, slots of 10_state.md R21). -/
def crtcInstr (k : BitVec 4) (value : Word) : Instr :=
  match k.toNat with
  | 0 => .crtcHcr value
  | 1 => .crtcHswr value
  | 2 => .crtcHbsr value
  | 3 => .crtcHber value
  | 4 => .crtcHdsr value
  | 5 => .crtcHder value
  | 6 => .crtcHcsr value
  | 7 => .crtcHcer value
  | 8 => .crtcVcr value
  | 9 => .crtcVswr value
  | 10 => .crtcVbsr value
  | 11 => .crtcVber value
  | 12 => .crtcVdsr value
  | 13 => .crtcVder value
  | 14 => .crtcVcsr value
  | _ => .crtcVcer value

/-- The decode table of R52: which operation the word at offset `A` is. Total: no address is rejected (R61). -/
def decodeOffset (v : Variant) (A : Byte) (value : Word) : Instr :=
  if A < 0x40#8 then .palMain (A.extractLsb' 2 4) value
  else if A < 0x44#8 then .border value
  else if A < 0x48#8 then .curpal1 value
  else if A < 0x4C#8 then .curpal2 value
  else if A < 0x50#8 then .curpal3 value
  else if A < 0x58#8 then
    match v with
    | .gen1 => .holeGen1 value
    | .gen1Lcd => .holeGen1 value
    | .gen2 => if A < 0x54#8 then .pal8 value else .palidx value
  else if A < 0x60#8 then .hole value
  else if A < 0x80#8 then .stereo (A.extractLsb' 2 3) value
  else if A < 0xC0#8 then crtcInstr (A.extractLsb' 2 4) value
  else if A < 0xE0#8 then .sfr value
  else .ctrl value

/-- The decode of `write(address, value)` (R50, R52, R66). -/
def decodeWrite (v : Variant) (address value : Word) : Instr := decodeOffset v (windowOffset address) value

/-- The instruction a host call is (R11, R51, R66). -/
def decodeCall (v : Variant) : Call → Instr
  | .write address value => decodeWrite v address value
  | .writeVram o b => .writeVram o b
  | .writeCram o b => .writeCram o b
  | .writeDac c x => .writeDac c x
  | .clearDac c => .clearDac c
  | .dacLevel c => .dacLevel c
  | .flybackR => .flybackR
  | .render sf clip => .render sf clip
  | .reset => .reset

/-! ### The byte frame of a register write -/

/-- Why bytes are no register write. -/
inductive DecodeError where
  /-- fewer than the eight bytes of a frame -/
  | truncated
  deriving DecidableEq, Repr

/-- The decoder's answer on bytes: an instruction and the bytes after it, or a rejection by name. -/
inductive Decoded where
  | instr (i : Instr) (rest : List Byte)
  | rejected (why : DecodeError)
  deriving DecidableEq, Repr

/-- A word from four bytes, the first its bits [7:0] (log 9). -/
def wordOfBytes (b0 b1 b2 b3 : Byte) : Word := (b3 ++ b2 ++ b1 ++ b0).cast (by decide)

/-- The four bytes of a word, bits [7:0] first (log 9). -/
def bytesOfWord (w : Word) : List Byte :=
  [w.extractLsb' 0 8, w.extractLsb' 8 8, w.extractLsb' 16 8, w.extractLsb' 24 8]

/-- The register write whose frame the bytes begin with: the address, then the value (log 9). -/
def decodeBytes (v : Variant) : List Byte → Decoded
  | a0 :: a1 :: a2 :: a3 :: v0 :: v1 :: v2 :: v3 :: rest =>
    .instr (decodeWrite v (wordOfBytes a0 a1 a2 a3) (wordOfBytes v0 v1 v2 v3)) rest
  | _ => .rejected .truncated

/-- The 64 bits of a frame that starts with the `nbits` bits of `w`: bits [31:0] the address, bits [63:32] the value. -/
def frameOfBits (nbits w : Nat) : BitVec 64 := BitVec.ofNat 64 (w % 2 ^ nbits)

/-- The address and the value of a frame. -/
def writeOfFrame (f : BitVec 64) : Call := .write (f.extractLsb' 0 32) (f.extractLsb' 32 32)

/-- The variant of `State.reset`, and the one `decodeTableWord` decodes for (log 2). -/
def tableVariant : Variant := .gen2

/-- The instruction the decoder reads from a table row's bits, numbered as spec/opcode_table.json numbers them (bit 0 is
`address[0]`), with every bit above `nbits` zero. A row of format PORT has no bits, so 0 bits hold no instruction. -/
def decodeTableWord (nbits w : Nat) : Option Instr :=
  if nbits = 0 ∨ 64 < nbits then none
  else
    let f := frameOfBits nbits w
    match decodeBytes tableVariant (bytesOfWord (f.extractLsb' 0 32) ++ bytesOfWord (f.extractLsb' 32 32)) with
    | .instr i _ => some i
    | .rejected _ => none

/-! ### The encoder -/

/-- The word at offset `base + 4 * index` of the register window (R52). -/
def windowAddress (base : Word) (index : Nat) : Word := base + BitVec.ofNat 32 (4 * index)

/-- The call that is the instruction, with the lowest of the addresses that decode to it; none for a timer fire (R9, R51). -/
def encode : Instr → Option Call
  | .palMain i x => some (.write (windowAddress 0x00#32 i.toNat) x)
  | .border x => some (.write (windowAddress 0x40#32 0) x)
  | .curpal1 x => some (.write (windowAddress 0x40#32 1) x)
  | .curpal2 x => some (.write (windowAddress 0x40#32 2) x)
  | .curpal3 x => some (.write (windowAddress 0x40#32 3) x)
  | .pal8 x => some (.write 0x50#32 x)
  | .palidx x => some (.write 0x54#32 x)
  | .holeGen1 x => some (.write 0x50#32 x)
  | .hole x => some (.write 0x58#32 x)
  | .stereo ch x => some (.write (windowAddress 0x60#32 ch.toNat) x)
  | .crtcHcr x => some (.write (windowAddress 0x80#32 0) x)
  | .crtcHswr x => some (.write (windowAddress 0x80#32 1) x)
  | .crtcHbsr x => some (.write (windowAddress 0x80#32 2) x)
  | .crtcHber x => some (.write (windowAddress 0x80#32 3) x)
  | .crtcHdsr x => some (.write (windowAddress 0x80#32 4) x)
  | .crtcHder x => some (.write (windowAddress 0x80#32 5) x)
  | .crtcHcsr x => some (.write (windowAddress 0x80#32 6) x)
  | .crtcHcer x => some (.write (windowAddress 0x80#32 7) x)
  | .crtcVcr x => some (.write (windowAddress 0x80#32 8) x)
  | .crtcVswr x => some (.write (windowAddress 0x80#32 9) x)
  | .crtcVbsr x => some (.write (windowAddress 0x80#32 10) x)
  | .crtcVber x => some (.write (windowAddress 0x80#32 11) x)
  | .crtcVdsr x => some (.write (windowAddress 0x80#32 12) x)
  | .crtcVder x => some (.write (windowAddress 0x80#32 13) x)
  | .crtcVcsr x => some (.write (windowAddress 0x80#32 14) x)
  | .crtcVcer x => some (.write (windowAddress 0x80#32 15) x)
  | .sfr x => some (.write 0xC0#32 x)
  | .ctrl x => some (.write 0xE0#32 x)
  | .writeVram o b => some (.writeVram o b)
  | .writeCram o b => some (.writeCram o b)
  | .writeDac c x => some (.writeDac c x)
  | .clearDac c => some (.clearDac c)
  | .dacLevel c => some (.dacLevel c)
  | .flybackR => some .flybackR
  | .render sf clip => some (.render sf clip)
  | .reset => some .reset
  | .videoFire => none
  | .soundFire => none

/-- The frame of a register write; none for an instruction of format PORT (R51). -/
def encodeBytes (i : Instr) : Option (List Byte) :=
  match encode i with
  | some (.write address value) => some (bytesOfWord address ++ bytesOfWord value)
  | _ => none

/-! ### The opcode table, for the decoder's cross-check -/

/-- A REGW row of spec/opcode_table.json: it matches an offset whose bits under `mask` are `pattern`, on its variants. -/
structure OpcodeRow where
  mnemonic : String
  pattern  : Byte
  mask     : Byte
  variants : List Variant
  deriving DecidableEq, Repr

/-- The row matches the low address byte on the variant. -/
def OpcodeRow.covers (r : OpcodeRow) (v : Variant) (a : Byte) : Bool :=
  decide (v ∈ r.variants) && decide (a &&& r.mask = r.pattern)

/-- The rows of the table's palette, hole and stereo words. -/
def paletteRows : List OpcodeRow :=
  [⟨"PAL_MAIN", 0x00#8, 0xC0#8, [.gen1, .gen1Lcd, .gen2]⟩,
   ⟨"BORDER", 0x40#8, 0xFC#8, [.gen1, .gen1Lcd, .gen2]⟩,
   ⟨"CURPAL1", 0x44#8, 0xFC#8, [.gen1, .gen1Lcd, .gen2]⟩,
   ⟨"CURPAL2", 0x48#8, 0xFC#8, [.gen1, .gen1Lcd, .gen2]⟩,
   ⟨"CURPAL3", 0x4C#8, 0xFC#8, [.gen1, .gen1Lcd, .gen2]⟩,
   ⟨"PAL8", 0x50#8, 0xFC#8, [.gen2]⟩,
   ⟨"PALIDX", 0x54#8, 0xFC#8, [.gen2]⟩,
   ⟨"HOLE", 0x50#8, 0xF8#8, [.gen1, .gen1Lcd]⟩,
   ⟨"HOLE", 0x58#8, 0xF8#8, [.gen1, .gen1Lcd, .gen2]⟩,
   ⟨"STEREO", 0x60#8, 0xE0#8, [.gen1, .gen1Lcd, .gen2]⟩]

/-- The rows of the table's CRTC, sound-frequency and control words. -/
def timingRows : List OpcodeRow :=
  [⟨"CRTC.HCR", 0x80#8, 0xFC#8, [.gen1, .gen1Lcd, .gen2]⟩,
   ⟨"CRTC.HSWR", 0x84#8, 0xFC#8, [.gen1, .gen1Lcd, .gen2]⟩,
   ⟨"CRTC.HBSR", 0x88#8, 0xFC#8, [.gen1, .gen1Lcd, .gen2]⟩,
   ⟨"CRTC.HBER", 0x8C#8, 0xFC#8, [.gen1, .gen1Lcd, .gen2]⟩,
   ⟨"CRTC.HDSR", 0x90#8, 0xFC#8, [.gen1, .gen1Lcd, .gen2]⟩,
   ⟨"CRTC.HDER", 0x94#8, 0xFC#8, [.gen1, .gen1Lcd, .gen2]⟩,
   ⟨"CRTC.HCSR", 0x98#8, 0xFC#8, [.gen1, .gen1Lcd, .gen2]⟩,
   ⟨"CRTC.HCER", 0x9C#8, 0xFC#8, [.gen1, .gen1Lcd, .gen2]⟩,
   ⟨"CRTC.VCR", 0xA0#8, 0xFC#8, [.gen1, .gen1Lcd, .gen2]⟩,
   ⟨"CRTC.VSWR", 0xA4#8, 0xFC#8, [.gen1, .gen1Lcd, .gen2]⟩,
   ⟨"CRTC.VBSR", 0xA8#8, 0xFC#8, [.gen1, .gen1Lcd, .gen2]⟩,
   ⟨"CRTC.VBER", 0xAC#8, 0xFC#8, [.gen1, .gen1Lcd, .gen2]⟩,
   ⟨"CRTC.VDSR", 0xB0#8, 0xFC#8, [.gen1, .gen1Lcd, .gen2]⟩,
   ⟨"CRTC.VDER", 0xB4#8, 0xFC#8, [.gen1, .gen1Lcd, .gen2]⟩,
   ⟨"CRTC.VCSR", 0xB8#8, 0xFC#8, [.gen1, .gen1Lcd, .gen2]⟩,
   ⟨"CRTC.VCER", 0xBC#8, 0xFC#8, [.gen1, .gen1Lcd, .gen2]⟩,
   ⟨"SFR", 0xC0#8, 0xE0#8, [.gen1, .gen1Lcd, .gen2]⟩,
   ⟨"CTRL", 0xE0#8, 0xE0#8, [.gen1, .gen1Lcd, .gen2]⟩]

/-- Every REGW row of spec/opcode_table.json. -/
def opcodeRows : List OpcodeRow := paletteRows ++ timingRows

end Sys2Proof
end

