-- ==== Sys2Proof/Machine/Types.lean ====
section
/-! DEFINITION. The records the state is made of: CRTC slots, the geometry record, DAC channels, output events, answers of
calls, timers and step labels (10_state.md, 41_crtc.md R73, 60_exceptions.md R135). -/

namespace Sys2Proof.Machine

/-- The sixteen CRTC slots, in the order of R21. -/
inductive CrtcSlot where
  | hcr | hswr | hbsr | hber | hdsr | hder | hcsr | hcer
  | vcr | vswr | vbsr | vber | vdsr | vder | vcsr | vcer
  deriving DecidableEq, Repr

/-- `CRTC[0..15]`, sixteen 32-bit slots (R21). -/
structure Crtc where
  hcr  : Word
  hswr : Word
  hbsr : Word
  hber : Word
  hdsr : Word
  hder : Word
  hcsr : Word
  hcer : Word
  vcr  : Word
  vswr : Word
  vbsr : Word
  vber : Word
  vdsr : Word
  vder : Word
  vcsr : Word
  vcer : Word
  deriving DecidableEq, Repr

/-- The geometry record of R73. Horizontal fields are pixels, vertical fields scanlines, times seconds. -/
structure Geo where
  bpp       : Bpp
  /-- `F`, the horizontal conversion factor -/
  factor    : Nat
  pcs       : BitVec 2
  /-- `f_pix`, in Hz -/
  fPix      : Nat
  interlace : Bool
  ht        : Nat
  hsw       : Nat
  hbs       : Nat
  hbe       : Nat
  hds       : Nat
  hde       : Nat
  vt        : Nat
  vsw       : Nat
  vbs       : Nat
  vbe       : Nat
  vds       : Nat
  vde       : Nat
  dispW     : Int
  dispH     : Int
  bordW     : Int
  bordH     : Int
  valid     : Bool
  tLine     : Option Time
  tFrame    : Option Time
  deriving DecidableEq, Repr

/-- A half-open interval `[start, stop)` of pixel columns or scanlines, empty when `stop <= start` (R16, R75). -/
structure Window where
  start : Nat
  stop  : Nat
  deriving DecidableEq, Repr

/-- One record of `DAC[0..7]` (R28). -/
structure DacChannel where
  pan    : BitVec 3
  gainL  : Rat
  gainR  : Rat
  sample : BitVec 16
  outL   : Rat
  outR   : Rat
  active : Bool
  deriving DecidableEq, Repr

/-- The three output events (R135, R136). -/
inductive Event where
  | resChange (g : Geo)
  | vblankEdge (level : Bool)
  | soundDrq
  deriving DecidableEq, Repr

/-- What a call answers its caller (R51): the levels of `dac_level`, the line of `flyback_r`, the surface of `render`. -/
inductive Reply where
  | level (left right : Rat)
  | flyback (line : Bool)
  | surface (sf : Surface)
  deriving DecidableEq, Repr

/-- The two timer identities (R123, R140). -/
inductive TimerKind where
  | video
  | sound
  deriving DecidableEq, Repr

/-- The kinds of step (R125): the next host step of the program, or a timer step. -/
inductive Label where
  | host
  | fire (k : TimerKind)
  deriving DecidableEq, Repr

/-- One host step `(t, op)` of a host program (R128). -/
structure HostStep where
  time : Time
  call : Call
  deriving DecidableEq, Repr

end Sys2Proof.Machine
end

