-- ==== Sys2Proof/Machine/Operands.lean ====
section
/-! DEFINITION. Operand fields of a register write's value (30_encoding.md R54-R60, R62), the masks of PORT arguments (R51),
slot access, and the palette layout of a variant (00_scope.md R12). -/

namespace Sys2Proof.Machine

/-! ### Fields of a value -/

/-- `red4 = value[3:0]` (R54). -/
def red4 (value : Word) : BitVec 4 := value.extractLsb' 0 4

/-- `green4 = value[7:4]` (R54). -/
def green4 (value : Word) : BitVec 4 := value.extractLsb' 4 4

/-- `blue4 = value[11:8]` (R54). -/
def blue4 (value : Word) : BitVec 4 := value.extractLsb' 8 4

/-- `red8 = value[7:0]` (R55). -/
def red8 (value : Word) : Byte := value.extractLsb' 0 8

/-- `green8 = value[15:8]` (R55). -/
def green8 (value : Word) : Byte := value.extractLsb' 8 8

/-- `blue8 = value[23:16]` (R55). -/
def blue8 (value : Word) : Byte := value.extractLsb' 16 8

/-- `index = value[7:0]` of a PALIDX write (R56). -/
def palidxField (value : Word) : Byte := value.extractLsb' 0 8

/-- `pan = value[2:0]` of a STEREO write (R57). -/
def panField (value : Word) : BitVec 3 := value.extractLsb' 0 3

/-- `field = value[CRTC_BITS-1:0]` of a CRTC write, the bits above masked off (R58, R79). -/
def crtcField (c : Config) (value : Word) : Word := BitVec.ofNat 32 (value.toNat % 2 ^ c.crtcBits)

/-- `latch = value[7:0]` of an SFR write (R59). -/
def sfrField (value : Word) : Byte := value.extractLsb' 0 8

/-- The bits of the control word a variant stores: 0x04F, and 0x14F on GEN2 (R60). -/
def ctrlMask : Variant → Word
  | .gen1 => 0x04F#32
  | .gen1Lcd => 0x04F#32
  | .gen2 => 0x14F#32

/-- The control word a CTRL write stores (R60, R96). -/
def ctrlField (v : Variant) (value : Word) : Word := value &&& ctrlMask v

/-! ### Fields of the control word (R22) -/

/-- `PCS`, bits [1:0]. -/
def ctrlPcs (ctrl : Word) : BitVec 2 := ctrl.extractLsb' 0 2

/-- `BPP`, bits [3:2], the bit-depth code. -/
def ctrlBppCode (ctrl : Word) : BitVec 2 := ctrl.extractLsb' 2 2

/-- `INTERLACE`, bit [6]. -/
def ctrlInterlace (ctrl : Word) : Bool := ctrl.getLsbD 6

/-- `SDAC`, bit [8], GEN2 only. -/
def ctrlSdac (ctrl : Word) : Bool := ctrl.getLsbD 8

/-! ### PORT arguments (R51) -/

/-- `channel & 7`. -/
def channelArg (channel : Nat) : BitVec 3 := BitVec.ofNat 3 channel

/-- `sample & 0xFF`, and `byte & 0xFF`. -/
def byteArg (byte : Nat) : Byte := BitVec.ofNat 8 byte

/-! ### CRTC slots (R21) -/

/-- `reg[NAME]` of a CRTC slot. -/
def Crtc.get (c : Crtc) : CrtcSlot → Word
  | .hcr => c.hcr
  | .hswr => c.hswr
  | .hbsr => c.hbsr
  | .hber => c.hber
  | .hdsr => c.hdsr
  | .hder => c.hder
  | .hcsr => c.hcsr
  | .hcer => c.hcer
  | .vcr => c.vcr
  | .vswr => c.vswr
  | .vbsr => c.vbsr
  | .vber => c.vber
  | .vdsr => c.vdsr
  | .vder => c.vder
  | .vcsr => c.vcsr
  | .vcer => c.vcer

/-- `reg[NAME] <- x` of a CRTC slot. -/
def Crtc.set (c : Crtc) (k : CrtcSlot) (x : Word) : Crtc :=
  match k with
  | .hcr => { c with hcr := x }
  | .hswr => { c with hswr := x }
  | .hbsr => { c with hbsr := x }
  | .hber => { c with hber := x }
  | .hdsr => { c with hdsr := x }
  | .hder => { c with hder := x }
  | .hcsr => { c with hcsr := x }
  | .hcer => { c with hcer := x }
  | .vcr => { c with vcr := x }
  | .vswr => { c with vswr := x }
  | .vbsr => { c with vbsr := x }
  | .vber => { c with vber := x }
  | .vdsr => { c with vdsr := x }
  | .vder => { c with vder := x }
  | .vcsr => { c with vcsr := x }
  | .vcer => { c with vcer := x }

/-- Every slot 0 (R21, R145). -/
def Crtc.zero : Crtc := ⟨0, 0, 0, 0, 0, 0, 0, 0, 0, 0, 0, 0, 0, 0, 0, 0⟩

/-! ### The palette layout (R12, R25) -/

/-- `N_MAIN`: 16, and 256 on GEN2. -/
def nMain : Variant → Nat
  | .gen1 => 16
  | .gen1Lcd => 16
  | .gen2 => 256

/-- `MAIN_BASE`: 0. -/
def mainBase (_ : Variant) : Nat := 0

/-- `BORDER_BASE`: 16, and 256 on GEN2. -/
def borderBase : Variant → Nat
  | .gen1 => 16
  | .gen1Lcd => 16
  | .gen2 => 256

/-- `CURSOR_BASE`: 17, and 257 on GEN2. -/
def cursorBase : Variant → Nat
  | .gen1 => 17
  | .gen1Lcd => 17
  | .gen2 => 257

/-- `N_PAL`: 20, and 260 on GEN2. -/
def nPal : Variant → Nat
  | .gen1 => 20
  | .gen1Lcd => 20
  | .gen2 => 260

end Sys2Proof.Machine
end

