-- ==== Sys2Proof/Machine/Colour.lean ====
section
/-! DEFINITION. Colour conversion (42_palette.md R97-R99). -/

namespace Sys2Proof.Machine

/-- A nibble times 17, in a byte: `0xN` becomes `0xNN` (R97). -/
def expand4 (x : BitVec 4) : Byte := BitVec.ofNat 8 (x.toNat * 17)

/-- `pal4_convert(value)` (R97). The GEN1 extra bit `value[12]` is discarded. -/
def pal4Convert (value : Word) : Rgb :=
  ⟨expand4 (red4 value), expand4 (green4 value), expand4 (blue4 value)⟩

/-- `pal8_convert(value)` (R98). -/
def pal8Convert (value : Word) : Rgb := ⟨red8 value, green8 value, blue8 value⟩

/-- `LCD_SHAPE(c)`: the identity on GEN1 and GEN2, open on GEN1_LCD (R99, log 11). -/
def lcdShape (v : Variant) (c : Rgb) : Rgb :=
  match v with
  | .gen1 => c
  | .gen1Lcd => Config.lcdShapeLcd c
  | .gen2 => c

/-- `0xFF000000 | (r << 16) | (g << 8) | b` (R99). -/
def packPixel (c : Rgb) : Word :=
  0xFF000000#32 ||| (c.r.setWidth 32 <<< 16) ||| (c.g.setWidth 32 <<< 8) ||| c.b.setWidth 32

/-- `to_pixel(c)` (R99). -/
def toPixel (v : Variant) (c : Rgb) : Word := packPixel (lcdShape v c)

/-- `(0, 0, 0)`, the reset value of every palette entry (R25). -/
def black : Rgb := ⟨0, 0, 0⟩

end Sys2Proof.Machine
end

