-- ==== Sys2Proof/Machine/Defaults.lean ====
section
/-! DEFINITION. The parameter values of 00_scope.md R12: each variant's value or default (log 14). -/

namespace Sys2Proof.Machine

/-- The table of `f 0`, …, `f (n - 1)`. -/
def tableOf {α : Type} (n : Nat) (f : Nat → α) : Vector α n := ⟨((List.range n).map f).toArray, by simp⟩

/-- The magnitude `m` of a companded sample before scaling (44_audio.md R113). -/
def lutMagnitude (s : Byte) : Nat :=
  let chord := (s.extractLsb' 5 3).toNat
  let point := (s.extractLsb' 1 4).toNat
  ((16 + point) <<< chord) - 16

/-- The default `LUT(s)` (R113). -/
def lutEntry (s : Byte) : BitVec 16 :=
  let m : Int := lutMagnitude s
  BitVec.ofInt 16 (8 * (if s.getLsbD 0 then -m else m))

/-- The default `PAN_L(p)` (R114). -/
def panLEntry (p : Nat) : Rat := if p = 0 then 1 else ((7 : Rat) - p) / 3

/-- The default `PAN_R(p)` (R114). -/
def panREntry (p : Nat) : Rat := if p = 0 then 1 else ((p : Rat) - 1) / 3

/-- The default pixel rate of clock source `s` (R12, R71). -/
def pixClkHz (s : Nat) : Nat :=
  match s with
  | 0 => 8000000
  | 1 => 12000000
  | 2 => 16000000
  | _ => 24000000

/-- The four entries of the default `PIXCLK` at one bit depth. -/
def pixClkRow (b : Bpp) : List PixClkEntry := (List.range 4).map fun s => ⟨b, BitVec.ofNat 2 s, pixClkHz s⟩

/-- The default `PIXCLK` (R12). -/
def pixClkTable : List PixClkEntry := pixClkRow .b1 ++ pixClkRow .b2 ++ pixClkRow .b4 ++ pixClkRow .b8

/-- `SOUND_DIV`: 8, and 1 on GEN2 (R12). -/
def soundDivOf : Variant → Nat
  | .gen1 => 8
  | .gen1Lcd => 8
  | .gen2 => 1

/-- `MAIN_MAP(i)`: `i mod 16`, and `i` on GEN2 (R12, R100). -/
def mainMapEntry (v : Variant) (i : Nat) : Nat :=
  match v with
  | .gen1 => i % 16
  | .gen1Lcd => i % 16
  | .gen2 => i

/-- The configuration of a variant with every parameter at the value R12 gives it. -/
def defaultConfig (v : Variant) : Config where
  variant := v
  vramBits := 21
  cramBits := 15
  bppSet := [.b1, .b2, .b4, .b8]
  hconv := tableOf 4 (2 ^ ·)
  pixclk := pixClkTable
  crtcBits := 16
  cursorW := 32
  lut := tableOf 256 fun s => lutEntry (BitVec.ofNat 8 s)
  panL := tableOf 8 panLEntry
  panR := tableOf 8 panREntry
  gIn := 1
  soundDiv := soundDivOf v
  soundUnit := 1 / 1000000
  mainMap := tableOf 256 (mainMapEntry v)

end Sys2Proof.Machine
end

