-- ==== Sys2Proof/Machine/Geometry.lean ====
section
/-! DEFINITION. The CRTC timing model's derivation functions (41_crtc.md section 1, R68-R77). -/

namespace Sys2Proof.Machine

/-- The first member of a list whose key is least. -/
def leastBy {α : Type} (key : α → Nat) : List α → Option α
  | [] => none
  | a :: l =>
    match leastBy key l with
    | none => some a
    | some b => if key b < key a then some b else some a

/-! ### Bit depth and conversion factor -/

/-- `log2 b` of a bit depth: 0 for 1, 1 for 2, 2 for 4, 3 for 8 bpp. -/
def bppLog : Bpp → Fin 4
  | .b1 => 0
  | .b2 => 1
  | .b4 => 2
  | .b8 => 3

/-- The bits of one pixel. -/
def bppBits (b : Bpp) : Nat := 2 ^ (bppLog b).val

/-- `b = 2 ^ code` of the control word's BPP code (R22, R68). -/
def bppOfCode (code : BitVec 2) : Bpp :=
  match code.toNat with
  | 0 => .b1
  | 1 => .b2
  | 2 => .b4
  | _ => .b8

/-- `|log2 b - log2 b'|` (R68, R71). -/
def bppDistance (b b' : Bpp) : Nat := ((bppLog b).val - (bppLog b').val) + ((bppLog b').val - (bppLog b).val)

/-- The member of a set of bit depths nearest to `b`, a tie going to the smaller member (R68). -/
def nearestBpp (b : Bpp) (set : List Bpp) : Option Bpp :=
  leastBy (fun b' => bppDistance b b' * 4 + (bppLog b').val) set

/-- The effective bit depth (R68). `BPP_SET` is never empty, so the last alternative is not reached. -/
def effectiveBpp (c : Config) (ctrl : Word) : Bpp :=
  let b := bppOfCode (ctrlBppCode ctrl)
  if b ∈ c.bppSet then b else (nearestBpp b c.bppSet).getD b

/-- `HCONV(b)` (R69). -/
def hconvOf (c : Config) (b : Bpp) : Nat := c.hconv[bppLog b]

/-! ### Pixel clock -/

/-- `|PCS - s'|` (R71). -/
def pcsDistance (s s' : BitVec 2) : Nat := (s.toNat - s'.toNat) + (s'.toNat - s.toNat)

/-- The order R71 picks a table entry by: the distance of the bit depths, then of the sources, then the smaller depth, then
the smaller source. An entry for `(bpp, PCS)` itself comes before every other. -/
def pixClkKey (b : Bpp) (s : BitVec 2) (e : PixClkEntry) : Nat :=
  ((bppDistance b e.bpp * 4 + pcsDistance s e.pcs) * 4 + (bppLog e.bpp).val) * 4 + e.pcs.toNat

/-- `f_pix = PIXCLK(bpp, PCS)` with its fallback, 0 when the table has no entry (R71). -/
def pixelClock (c : Config) (b : Bpp) (s : BitVec 2) : Nat :=
  match leastBy (pixClkKey b s) c.pixclk with
  | some e => e.hz
  | none => 0

/-! ### The geometry record -/

/-- `Geo()` (R73, R74, R76): a function of the CRTC slots, the control word and the configuration. -/
def geometry (c : Config) (crtc : Crtc) (ctrl : Word) : Geo :=
  let bpp := effectiveBpp c ctrl
  let f := hconvOf c bpp
  let pcs := ctrlPcs ctrl
  let fPix := pixelClock c bpp pcs
  let px (r : Word) : Nat := r.toNat * f
  let ht := px crtc.hcr
  let vt := crtc.vcr.toNat
  let valid := decide (1 ≤ ht) && decide (1 ≤ vt) && decide (1 ≤ fPix)
  { bpp := bpp
    factor := f
    pcs := pcs
    fPix := fPix
    interlace := ctrlInterlace ctrl
    ht := ht
    hsw := px crtc.hswr
    hbs := px crtc.hbsr
    hbe := px crtc.hber
    hds := px crtc.hdsr
    hde := px crtc.hder
    vt := vt
    vsw := crtc.vswr.toNat
    vbs := crtc.vbsr.toNat
    vbe := crtc.vber.toNat
    vds := crtc.vdsr.toNat
    vde := crtc.vder.toNat
    dispW := (px crtc.hder : Int) - (px crtc.hdsr : Int)
    dispH := (crtc.vder.toNat : Int) - (crtc.vdsr.toNat : Int)
    bordW := (px crtc.hber : Int) - (px crtc.hbsr : Int)
    bordH := (crtc.vber.toNat : Int) - (crtc.vbsr.toNat : Int)
    valid := valid
    tLine := if valid then some ((ht : Rat) / (fPix : Rat)) else none
    tFrame := if valid then some ((vt : Rat) * ((ht : Rat) / (fPix : Rat))) else none }

/-! ### Windows (R75) and derived timing (R76) -/

/-- The position lies in the half-open window (R16). -/
def Window.contains (w : Window) (p : Nat) : Bool := decide (w.start ≤ p) && decide (p < w.stop)

/-- The total cycle of the horizontal axis, `[0, ht)`. -/
def Geo.hTotal (g : Geo) : Window := ⟨0, g.ht⟩

/-- The total cycle of the vertical axis, `[0, vt)`. -/
def Geo.vTotal (g : Geo) : Window := ⟨0, g.vt⟩

/-- The horizontal sync pulse, `[0, hsw)`. -/
def Geo.hSync (g : Geo) : Window := ⟨0, g.hsw⟩

/-- The vertical sync pulse, `[0, vsw)`. -/
def Geo.vSync (g : Geo) : Window := ⟨0, g.vsw⟩

/-- The horizontal border window, `[hbs, hbe)`. -/
def Geo.hBorder (g : Geo) : Window := ⟨g.hbs, g.hbe⟩

/-- The vertical border window, `[vbs, vbe)`. -/
def Geo.vBorder (g : Geo) : Window := ⟨g.vbs, g.vbe⟩

/-- The horizontal display window, `[hds, hde)`. -/
def Geo.hDisplay (g : Geo) : Window := ⟨g.hds, g.hde⟩

/-- The vertical display window, `[vds, vde)`. -/
def Geo.vDisplay (g : Geo) : Window := ⟨g.vds, g.vde⟩

/-- One pixel of a valid geometry lasts `1 / f_pix` seconds (R76). -/
def Geo.pixelTime (g : Geo) : Option Time := if g.valid then some (1 / (g.fPix : Rat)) else none

/-- The frame rate of a valid geometry, `f_pix / (ht * vt)` Hz (R76). -/
def Geo.frameRate (g : Geo) : Option Rat :=
  if g.valid then some ((g.fPix : Rat) / ((g.ht : Rat) * (g.vt : Rat))) else none

end Sys2Proof.Machine
end

