-- ==== Sys2Proof/Machine/Memory.lean ====
section
/-! DEFINITION. A byte buffer as sparse data in one canonical form, and its named operations (20_memory.md R41). -/

namespace Sys2Proof.Machine

/-- A buffer's bytes: the bytes that differ from `unlistedByte`, by strictly rising offset. -/
abbrev Memory := List Host.Cell

/-- What an offset that is not listed reads as (log 4). -/
def unlistedByte (_offset : Nat) : Byte := 0

/-- The byte at an offset. -/
def memRead : Memory → Nat → Byte
  | [], o => unlistedByte o
  | (a, b) :: m, o => if a = o then b else memRead m o

/-- The cells of one byte: none if it is what an unlisted offset reads as. -/
def cellOf (o : Nat) (b : Byte) : Memory := if b = unlistedByte o then [] else [(o, b)]

/-- The buffer with byte `b` at offset `o`, in canonical form again. -/
def memWrite : Memory → Nat → Byte → Memory
  | [], o, b => cellOf o b
  | (a, x) :: m, o, b =>
    if o < a then cellOf o b ++ (a, x) :: m
    else if o = a then cellOf o b ++ m
    else (a, x) :: memWrite m o b

/-- The canonical form: offsets strictly rising, no entry equal to what an unlisted offset reads as. -/
abbrev Memory.wf (m : Memory) : Prop :=
  m.Pairwise (fun c d => c.1 < d.1) ∧ ∀ c ∈ m, c.2 ≠ unlistedByte c.1

/-- Every listed offset lies inside a buffer of `2 ^ bits` bytes (R26, R27). -/
abbrev Memory.within (m : Memory) (bits : Nat) : Prop := ∀ c ∈ m, c.1 < 2 ^ bits

/-- `VramRead(o)`, `CramRead(o)`: the byte at `o mod 2 ^ bits` (00_scope.md R14). -/
def bufRead (m : Memory) (bits o : Nat) : Byte := memRead m (o % 2 ^ bits)

/-- `VramWrite(o, b)`, `CramWrite(o, b)`: byte `b` at `o mod 2 ^ bits` (R14, R41). -/
def bufWrite (m : Memory) (bits o : Nat) (b : Byte) : Memory := memWrite m (o % 2 ^ bits) b

end Sys2Proof.Machine
end

