-- ==== Sys2Proof/Machine/State.lean ====
section
/-! DEFINITION. The state of the machine (10_state.md), its construction (R36), its reset state, and the reasons a step can
stop. -/

namespace Sys2Proof.Machine

/-- Why a step stops. No entry point raises a fault (60_exceptions.md R134): both are raised by `step` alone, in a state in
which 45_scheduler.md R125 enables no step (log 7). -/
inductive Fault where
  /-- Raised by `step`: the host has no call to come and neither timer is armed. Safe: R125 has no step here either. -/
  | noStepEnabled
  /-- Raised by `step`: the host's next call is for a time before `now`, and neither timer is armed, so R125 (a) never
  enables it. Safe: R125 has no step here either. -/
  | hostCallOverdue
  deriving DecidableEq, Repr

/-- Why an instruction has no meaning. -/
inductive Refusal where
  /-- Raised by `exec` for an instruction without a meaning; no arm raises it in this model. Safe: the model stops. -/
  | notModelled (mnemonic : String)
  deriving DecidableEq, Repr

/-- The state. Fields of the spec first (10_state.md), then the configuration, then the model's own three fields. -/
structure State where
  /-- `CRTC[0..15]` (R21) -/
  crtc     : Crtc
  /-- `CTRL` (R22) -/
  ctrl     : Word
  /-- `SFR` (R23) -/
  sfr      : Byte
  /-- `PALIDX` (R24), GEN2 only -/
  palidx   : Byte
  /-- `PAL[0 .. N_PAL-1]` (R25) -/
  pal      : List Rgb
  /-- `VRAM` (R26) -/
  vram     : Memory
  /-- `CRAM` (R27) -/
  cram     : Memory
  /-- `DAC[0..7]` (R28) -/
  dac      : Vector DacChannel 8
  /-- `GEO` (R29) -/
  geo      : Geo
  /-- `vline` (R31) -/
  vline    : Nat
  /-- `flyback` (R32) -/
  flyback  : Bool
  /-- `due_video` (R33), `none` being `never` -/
  dueVideo : Option Time
  /-- `due_sound` (R33), `none` being `never` -/
  dueSound : Option Time
  /-- `now` (R34) -/
  now      : Time
  /-- `history` (R35), oldest first -/
  history  : List (Time × Event)
  /-- variant and parameters (R2, R12), fixed at construction (log 3) -/
  cfg      : Config
  /-- the host steps still to come (R128; log 5) -/
  program  : List HostStep
  /-- what the host's calls answered, oldest first (R51; log 8) -/
  replies  : List Reply
  /-- how many ties the steps have met (log 6) -/
  ties     : Nat
  deriving DecidableEq, Repr

/-- A DAC channel after reset (R28, R145). -/
def DacChannel.initial (c : Config) : DacChannel where
  pan := 0
  gainL := c.gIn * c.panL[0]
  gainR := c.gIn * c.panR[0]
  sample := 0
  outL := 0
  outR := 0
  active := false

/-- The state at construction (R36), for a configuration and the buffers' contents `VRAM_INIT`, `CRAM_INIT`. -/
def State.construct (c : Config) (vramInit cramInit : Memory) : State where
  crtc := Crtc.zero
  ctrl := 0
  sfr := 0
  palidx := 0
  pal := List.replicate (nPal c.variant) black
  vram := vramInit
  cram := cramInit
  dac := Vector.replicate 8 (DacChannel.initial c)
  geo := geometry c Crtc.zero 0
  vline := 0
  flyback := false
  dueVideo := none
  dueSound := none
  now := 0
  history := []
  cfg := c
  program := []
  replies := []
  ties := 0

/-- The machine right after construction and reset: the variant `tableVariant` with the parameters of R12, buffers listing
nothing, no host program loaded (log 2, 4, 5). -/
def State.reset : State := State.construct (defaultConfig tableVariant) [] []

end Sys2Proof.Machine
end

