-- ==== Sys2Proof/Machine/Ops.lean ====
section
/-! DEFINITION. The named operations over the state (00_scope.md R14): register, palette, buffer and DAC accesses, `arm` and
`emit` (45_scheduler.md R123, R124), and the shared procedures `geo_update`, `stereo_refresh` and `sound_refresh`. The
device takes no exception (60_exceptions.md R134, R138); what plays its part, pushing an output event, is `State.emit`. -/

namespace Sys2Proof.Machine

/-! ### Single fields -/

/-- `reg[CRTC[k]] <- x`. -/
def State.setCrtc (s : State) (k : CrtcSlot) (x : Word) : State := { s with crtc := s.crtc.set k x }

/-- `reg[CTRL] <- x`. -/
def State.setCtrl (s : State) (x : Word) : State := { s with ctrl := x }

/-- `reg[SFR] <- x`. -/
def State.setSfr (s : State) (x : Byte) : State := { s with sfr := x }

/-- `reg[PALIDX] <- x`. -/
def State.setPalidx (s : State) (x : Byte) : State := { s with palidx := x }

/-- `PAL[i] <- c`. -/
def State.setPal (s : State) (i : Nat) (c : Rgb) : State := { s with pal := s.pal.set i c }

/-- `VramWrite(o, b)` (R14, R41). -/
def State.vramWrite (s : State) (o : Nat) (b : Byte) : State := { s with vram := bufWrite s.vram s.cfg.vramBits o b }

/-- `CramWrite(o, b)` (R14, R41). -/
def State.cramWrite (s : State) (o : Nat) (b : Byte) : State := { s with cram := bufWrite s.cram s.cfg.cramBits o b }

/-- `DAC[c] <- d`. -/
def State.setDac (s : State) (c : BitVec 3) (d : DacChannel) : State :=
  { s with dac := s.dac.set c.toNat d c.isLt }

/-- `GEO <- g`. -/
def State.setGeo (s : State) (g : Geo) : State := { s with geo := g }

/-- `vline <- n`. -/
def State.setVline (s : State) (n : Nat) : State := { s with vline := n }

/-- `flyback <- b`. -/
def State.setFlyback (s : State) (b : Bool) : State := { s with flyback := b }

/-- `arm(kind, t)` (R123): it replaces the pending fire time; `none` is `never`. -/
def State.arm (s : State) (k : TimerKind) (t : Option Time) : State :=
  match k with
  | .video => { s with dueVideo := t }
  | .sound => { s with dueSound := t }

/-- `emit e` (R124): the event, stamped with `now`, at the end of the history. -/
def State.emit (s : State) (e : Event) : State := { s with history := s.history ++ [(s.now, e)] }

/-- The answer of a call, handed to the host (R51, log 8). -/
def State.answer (s : State) (r : Reply) : State := { s with replies := s.replies ++ [r] }

/-! ### Reads -/

/-- `due_k` (R33). -/
def State.due (s : State) : TimerKind → Option Time
  | .video => s.dueVideo
  | .sound => s.dueSound

/-- `PAL[i]` (R14). Every index a rule reads lies in the table (log 17). -/
def State.palRead (s : State) (i : Nat) : Rgb := s.pal.getD i black

/-- `VramRead(o)` (R14). -/
def State.vramRead (s : State) (o : Nat) : Byte := bufRead s.vram s.cfg.vramBits o

/-- `CramRead(o)` (R14). -/
def State.cramRead (s : State) (o : Nat) : Byte := bufRead s.cram s.cfg.cramBits o

/-- `DAC[c]`. -/
def State.dacRead (s : State) (c : BitVec 3) : DacChannel := s.dac[c.toNat]'c.isLt

/-! ### Geometry change (R78) -/

/-- `geo_update()` (R78): recompute the geometry; when it changed, store it, emit one `ResChange`, and restart or stop the
video timer. -/
def State.geoUpdate (s : State) : State :=
  let g := geometry s.cfg s.crtc s.ctrl
  if g = s.geo then s
  else (((s.setGeo g).emit (.resChange g)).setVline (if g.valid then s.vline % g.vt else 0)).arm .video
    (g.tLine.map (s.now + ·))

/-- `crtc_write(k, value)` (R79). -/
def State.crtcWrite (s : State) (k : CrtcSlot) (value : Word) : State :=
  (s.setCrtc k (crtcField s.cfg value)).geoUpdate

/-! ### Sound period and gains (R115, R116, R118) -/

/-- The sound period `P = SOUND_DIV * reg[SFR] * SOUND_UNIT` (R115). -/
def soundPeriod (c : Config) (latch : Byte) : Time := (c.soundDiv : Rat) * (latch.toNat : Rat) * c.soundUnit

/-- `sound_refresh()` (R118). -/
def State.soundRefresh (s : State) : State :=
  let p := soundPeriod s.cfg s.sfr
  s.arm .sound (if 0 < p then some (s.now + p) else none)

/-- `G_IN * PAN_L(p)` (R114, R116). -/
def gainLeft (c : Config) (p : BitVec 3) : Rat := c.gIn * c.panL[p.toNat]'p.isLt

/-- `G_IN * PAN_R(p)` (R114, R116). -/
def gainRight (c : Config) (p : BitVec 3) : Rat := c.gIn * c.panR[p.toNat]'p.isLt

/-- `stereo_refresh(c)` (R116). -/
def State.stereoRefresh (s : State) (c : BitVec 3) : State :=
  let d := s.dacRead c
  s.setDac c { d with gainL := gainLeft s.cfg d.pan, gainR := gainRight s.cfg d.pan }

/-- `LUT(x)` (R113). -/
def lutRead (c : Config) (x : Byte) : BitVec 16 := c.lut[x.toNat]'x.isLt

end Sys2Proof.Machine
end

