-- ==== Sys2Proof/Machine/Audio.lean ====
section
/-! DEFINITION. The audio DAC mixer's entry points (44_audio.md). -/

namespace Sys2Proof.Machine

open Host (Outcome)

/-- STEREO write (R117): the pan, then the gain pair. -/
def execStereo (ch : BitVec 3) (value : Word) (s : State) : Outcome State Fault Refusal :=
  .next ((s.setDac ch { s.dacRead ch with pan := panField value }).stereoRefresh ch)

/-- SFR write (R119): the latch, then the sound timer. -/
def execSfr (value : Word) (s : State) : Outcome State Fault Refusal :=
  .next (s.setSfr (sfrField value)).soundRefresh

/-- A channel given sample `x` (R120): the levels are the exact products with the channel's gains. -/
def DacChannel.withSample (d : DacChannel) (x : BitVec 16) : DacChannel :=
  { d with sample := x, outL := (x.toInt : Rat) * d.gainL, outR := (x.toInt : Rat) * d.gainR, active := true }

/-- A channel forced to zero, its pan and gains kept (R121). -/
def DacChannel.cleared (d : DacChannel) : DacChannel := { d with sample := 0, outL := 0, outR := 0, active := false }

/-- `write_dac(channel, sample)` (R120). -/
def execWriteDac (channel sample : Nat) (s : State) : Outcome State Fault Refusal :=
  let c := channelArg channel
  .next (s.setDac c ((s.dacRead c).withSample (lutRead s.cfg (byteArg sample))))

/-- `clear_dac(channel)` (R121). -/
def execClearDac (channel : Nat) (s : State) : Outcome State Fault Refusal :=
  let c := channelArg channel
  .next (s.setDac c (s.dacRead c).cleared)

/-- `dac_level(channel)` (R122): the answer is `(out_l, out_r)`; nothing else changes. -/
def execDacLevel (channel : Nat) (s : State) : Outcome State Fault Refusal :=
  let d := s.dacRead (channelArg channel)
  .next (s.answer (.level d.outL d.outR))

end Sys2Proof.Machine
end

