-- ==== Sys2Proof/Machine/Flags.lean ====
section
/-! DEFINITION. The device's flags: it has no condition codes (10_state.md R19), the one status flag `flyback` (R32), whose
value a video fire computes (45_scheduler.md R130), and the derived cursor-enable flag (R30). -/

namespace Sys2Proof.Machine

/-- `flyback_fn(line) = not (GEO.vds <= line < GEO.vde)` (R130). -/
def flybackFn (g : Geo) (line : Nat) : Bool := !g.vDisplay.contains line

/-- `cursor_enable = (reg[VCER] > reg[VCSR])` (R30). -/
def cursorEnable (c : Crtc) : Bool := decide (c.vcsr < c.vcer)

/-- A video fire's update of the line (R131): when it changes, store it and emit its edge. -/
def State.updateFlyback (s : State) : State :=
  let fl := flybackFn s.geo s.vline
  if fl = s.flyback then s else (s.setFlyback fl).emit (.vblankEdge fl)

end Sys2Proof.Machine
end

