-- ==== Sys2Proof/Machine/Palette.lean ====
section
/-! DEFINITION. The palette writes (42_palette.md section 3) and the palette lookups (R100). -/

namespace Sys2Proof.Machine

open Host (Outcome)

/-! ### Lookup -/

/-- `main_colour(idx) = PAL[MAIN_BASE + MAIN_MAP(idx)]` (R100). -/
def State.mainColour (s : State) (idx : Byte) : Rgb :=
  s.palRead (mainBase s.cfg.variant + s.cfg.mainMap[idx.toNat]'idx.isLt)

/-- `border_colour() = PAL[BORDER_BASE]` (R100). -/
def State.borderColour (s : State) : Rgb := s.palRead (borderBase s.cfg.variant)

/-- `cursor_colour(ci) = PAL[CURSOR_BASE + ci - 1]`, for ci in 1 to 3 (R100). -/
def State.cursorColour (s : State) (ci : Byte) : Rgb := s.palRead (cursorBase s.cfg.variant + ci.toNat - 1)

/-! ### Writes -/

/-- `pal_main_write(i, value)` (R102). -/
def State.palMainWrite (s : State) (i : BitVec 4) (value : Word) : State :=
  s.setPal (mainBase s.cfg.variant + i.toNat) (pal4Convert value)

/-- `curpal_write(ci, value)` (R103): slot 0 is the border entry. -/
def State.curpalWrite (s : State) (ci : Nat) (value : Word) : State :=
  if ci = 0 then s.setPal (borderBase s.cfg.variant) (pal4Convert value)
  else s.setPal (cursorBase s.cfg.variant + ci - 1) (pal4Convert value)

/-- PAL_MAIN write (R102). -/
def execPalMain (i : BitVec 4) (value : Word) (s : State) : Outcome State Fault Refusal := .next (s.palMainWrite i value)

/-- BORDER write, cursor palette slot 0 (R103). -/
def execBorder (value : Word) (s : State) : Outcome State Fault Refusal := .next (s.curpalWrite 0 value)

/-- CURPAL1 write (R103). -/
def execCurpal1 (value : Word) (s : State) : Outcome State Fault Refusal := .next (s.curpalWrite 1 value)

/-- CURPAL2 write (R103). -/
def execCurpal2 (value : Word) (s : State) : Outcome State Fault Refusal := .next (s.curpalWrite 2 value)

/-- CURPAL3 write (R103). -/
def execCurpal3 (value : Word) (s : State) : Outcome State Fault Refusal := .next (s.curpalWrite 3 value)

/-- `pal8_write(value)` (R104): store at the latch, then advance it modulo 256. -/
def State.pal8Write (s : State) (value : Word) : State :=
  (s.setPal (mainBase s.cfg.variant + s.palidx.toNat) (pal8Convert value)).setPalidx (s.palidx + 1)

/-- PAL8 write, GEN2 (R104). On GEN1 and GEN1_LCD the word 0x50 is a hole (R67, log 10). -/
def execPal8 (value : Word) (s : State) : Outcome State Fault Refusal :=
  match s.cfg.variant with
  | .gen1 => .next s
  | .gen1Lcd => .next s
  | .gen2 => .next (s.pal8Write value)

/-- PALIDX write, GEN2 (R105). On GEN1 and GEN1_LCD the word 0x54 is a hole (R67, log 10). -/
def execPalidx (value : Word) (s : State) : Outcome State Fault Refusal :=
  match s.cfg.variant with
  | .gen1 => .next s
  | .gen1Lcd => .next s
  | .gen2 => .next (s.setPalidx (palidxField value))

end Sys2Proof.Machine
end

