-- ==== Sys2Proof/Machine/Compositor.lean ====
section
/-! DEFINITION. The framebuffer compositor and the cursor blitter (43_compositor.md), with the cursor window (41_crtc.md R77). -/

namespace Sys2Proof.Machine

open Host (Outcome)

/-! ### Buffer writes -/

/-- `write_vram(offset, byte)` (R106). -/
def execWriteVram (offset byte : Nat) (s : State) : Outcome State Fault Refusal :=
  .next (s.vramWrite offset (byteArg byte))

/-- `write_cram(offset, byte)` (R107). -/
def execWriteCram (offset byte : Nat) (s : State) : Outcome State Fault Refusal :=
  .next (s.cramWrite offset (byteArg byte))

/-! ### Unpacking -/

/-- The pixel in the byte that holds bit `bit` of a packed buffer, of `b` bits, the first pixel in the top bits (R108). -/
def unpackByte (byte : Byte) (bit b : Nat) : Byte :=
  (byte >>> (8 - b - bit % 8)) &&& BitVec.ofNat 8 (2 ^ b - 1)

/-- `unpack(VRAM, p, b)` (R108). -/
def State.unpackVram (s : State) (p b : Nat) : Byte := unpackByte (s.vramRead (p * b / 8)) (p * b) b

/-- `unpack(CRAM, p, b)` (R108). -/
def State.unpackCram (s : State) (p b : Nat) : Byte := unpackByte (s.cramRead (p * b / 8)) (p * b) b

/-- `main_index(x, y)`, for a pixel of the display window (R109). -/
def State.mainIndex (s : State) (x y : Nat) : Byte :=
  let w := s.geo.hde - s.geo.hds
  let p := (y - s.geo.vds) * w + (x - s.geo.hds)
  s.unpackVram p (bppBits s.geo.bpp)

/-! ### The cursor -/

/-- `hcs = reg[HCSR] * F` (R77). -/
def State.hcs (s : State) : Nat := s.crtc.hcsr.toNat * s.geo.factor

/-- `hce = reg[HCER] * F` (R77): derived, and bounding nothing. -/
def State.hce (s : State) : Nat := s.crtc.hcer.toNat * s.geo.factor

/-- The columns of the cursor, `[hcs, hcs + CURSOR_W)` (R77). -/
def State.cursorColumns (s : State) : Window := ⟨s.hcs, s.hcs + s.cfg.cursorW⟩

/-- The scanlines of the cursor, `[vcs, vce)` (R77). -/
def State.cursorRows (s : State) : Window := ⟨s.crtc.vcsr.toNat, s.crtc.vcer.toNat⟩

/-- `cursor_size`, the cursor's bytes in the buffer (R77, log 18). -/
def State.cursorSize (s : State) : Int :=
  ((s.crtc.vcer.toNat : Int) - (s.crtc.vcsr.toNat : Int)) * ((s.cfg.cursorW / 4 : Nat) : Int)

/-- `cursor_index(x, y)`, 0 where there is no cursor pixel (R110). -/
def State.cursorIndex (s : State) (x y : Nat) : Byte :=
  if !cursorEnable s.crtc then 0
  else if !(s.cursorRows.contains y && s.cursorColumns.contains x) then 0
  else s.unpackCram ((y - s.crtc.vcsr.toNat) * s.cfg.cursorW + (x - s.hcs)) 2

/-! ### The pixel function and render -/

/-- The pixel lies in the display window of both axes (R75, R111). -/
def State.inDisplay (s : State) (x y : Nat) : Bool := s.geo.vDisplay.contains y && s.geo.hDisplay.contains x

/-- `pixel(x, y)` (R111): the cursor over anything, the main image in the display window, the border elsewhere. -/
def State.pixel (s : State) (x y : Nat) : Word :=
  let ci := s.cursorIndex x y
  if ci ≠ 0 then toPixel s.cfg.variant (s.cursorColour ci)
  else if s.inDisplay x y then toPixel s.cfg.variant (s.mainColour (s.mainIndex x y))
  else toPixel s.cfg.variant s.borderColour

/-- Column x and row y lie in the surface and in the clip rectangle: the loop bounds of R112. -/
def inClip (sf : Surface) (clip : Clip) (x y : Nat) : Bool :=
  decide (max 0 clip.cy ≤ (y : Int)) && decide ((y : Int) < min (sf.height : Int) (clip.cy + clip.ch))
    && decide (max 0 clip.cx ≤ (x : Int)) && decide ((x : Int) < min (sf.width : Int) (clip.cx + clip.cw))

/-- The surface `render` leaves (R112): each pixel of the clip is the device's, each other as the host left it. -/
def State.renderSurface (s : State) (sf : Surface) (clip : Clip) : Surface :=
  { sf with pixels := sf.pixels.mapIdx fun n old =>
      if inClip sf clip (n % sf.width) (n / sf.width) then s.pixel (n % sf.width) (n / sf.width) else old }

/-- `render(surface, clip)` (R112): the answer is the surface; nothing else changes. -/
def execRender (sf : Surface) (clip : Clip) (s : State) : Outcome State Fault Refusal :=
  .next (s.answer (.surface (s.renderSurface sf clip)))

end Sys2Proof.Machine
end

