-- ==== Sys2Proof/Machine/CrtcWrites.lean ====
section
/-! DEFINITION. The sixteen CRTC writes and the control write (41_crtc.md section 3). -/

namespace Sys2Proof.Machine

open Host (Outcome)

/-- HCR write (R80). -/
def execCrtcHcr (value : Word) (s : State) : Outcome State Fault Refusal := .next (s.crtcWrite .hcr value)

/-- HSWR write (R81). -/
def execCrtcHswr (value : Word) (s : State) : Outcome State Fault Refusal := .next (s.crtcWrite .hswr value)

/-- HBSR write (R82). -/
def execCrtcHbsr (value : Word) (s : State) : Outcome State Fault Refusal := .next (s.crtcWrite .hbsr value)

/-- HBER write (R83). -/
def execCrtcHber (value : Word) (s : State) : Outcome State Fault Refusal := .next (s.crtcWrite .hber value)

/-- HDSR write (R84). -/
def execCrtcHdsr (value : Word) (s : State) : Outcome State Fault Refusal := .next (s.crtcWrite .hdsr value)

/-- HDER write (R85). -/
def execCrtcHder (value : Word) (s : State) : Outcome State Fault Refusal := .next (s.crtcWrite .hder value)

/-- HCSR write (R86). -/
def execCrtcHcsr (value : Word) (s : State) : Outcome State Fault Refusal := .next (s.crtcWrite .hcsr value)

/-- HCER write (R87). -/
def execCrtcHcer (value : Word) (s : State) : Outcome State Fault Refusal := .next (s.crtcWrite .hcer value)

/-- VCR write (R88). -/
def execCrtcVcr (value : Word) (s : State) : Outcome State Fault Refusal := .next (s.crtcWrite .vcr value)

/-- VSWR write (R89). -/
def execCrtcVswr (value : Word) (s : State) : Outcome State Fault Refusal := .next (s.crtcWrite .vswr value)

/-- VBSR write (R90). -/
def execCrtcVbsr (value : Word) (s : State) : Outcome State Fault Refusal := .next (s.crtcWrite .vbsr value)

/-- VBER write (R91). -/
def execCrtcVber (value : Word) (s : State) : Outcome State Fault Refusal := .next (s.crtcWrite .vber value)

/-- VDSR write (R92). -/
def execCrtcVdsr (value : Word) (s : State) : Outcome State Fault Refusal := .next (s.crtcWrite .vdsr value)

/-- VDER write (R93). -/
def execCrtcVder (value : Word) (s : State) : Outcome State Fault Refusal := .next (s.crtcWrite .vder value)

/-- VCSR write (R94). -/
def execCrtcVcsr (value : Word) (s : State) : Outcome State Fault Refusal := .next (s.crtcWrite .vcsr value)

/-- VCER write (R95). -/
def execCrtcVcer (value : Word) (s : State) : Outcome State Fault Refusal := .next (s.crtcWrite .vcer value)

/-- The control word's store and `geo_update` (R96), before the sound refresh of GEN2. -/
def State.ctrlWrite (s : State) (value : Word) : State := (s.setCtrl (ctrlField s.cfg.variant value)).geoUpdate

/-- CTRL write (R96): on GEN2 it also restarts the sound timer. -/
def execCtrl (value : Word) (s : State) : Outcome State Fault Refusal :=
  match s.cfg.variant with
  | .gen1 => .next (s.ctrlWrite value)
  | .gen1Lcd => .next (s.ctrlWrite value)
  | .gen2 => .next (s.ctrlWrite value).soundRefresh

end Sys2Proof.Machine
end

