-- ==== Sys2Proof/Machine/System.lean ====
section
/-! DEFINITION. Hole writes (40_register_write.md R67), the status read (45_scheduler.md R133) and the reset event
(70_reset_and_hazards.md R145). -/

namespace Sys2Proof.Machine

open Host (Outcome)

/-- A write to the hole words 0x50 and 0x54 of GEN1 and GEN1_LCD (R67): nothing. -/
def execHoleGen1 (_value : Word) (s : State) : Outcome State Fault Refusal := .next s

/-- A write to the hole words 0x58 and 0x5C (R67): nothing. -/
def execHole (_value : Word) (s : State) : Outcome State Fault Refusal := .next s

/-- `flyback_r()` (R133): the answer is the line; nothing else changes. -/
def execFlybackR (s : State) : Outcome State Fault Refusal := .next (s.answer (.flyback s.flyback))

/-- `PALIDX` after the reset event: 0 on GEN2; the other variants have no latch to reset (R145, log 10). -/
def palidxAfterReset (v : Variant) (x : Byte) : Byte :=
  match v with
  | .gen1 => x
  | .gen1Lcd => x
  | .gen2 => 0

/-- The reset event (R145): it emits nothing and leaves `VRAM`, `CRAM`, `now` and `history` alone. -/
def State.resetEvent (s : State) : State :=
  { s with
    crtc := Crtc.zero
    ctrl := 0
    sfr := 0
    palidx := palidxAfterReset s.cfg.variant s.palidx
    pal := List.replicate (nPal s.cfg.variant) black
    dac := Vector.replicate 8 (DacChannel.initial s.cfg)
    geo := geometry s.cfg Crtc.zero 0
    vline := 0
    flyback := false
    dueVideo := none
    dueSound := none }

/-- RESET (R145). -/
def execReset (s : State) : Outcome State Fault Refusal := .next s.resetEvent

end Sys2Proof.Machine
end

