-- ==== Sys2Proof/Machine/Timers.lean ====
section
/-! DEFINITION. The timer handlers (45_scheduler.md R129, R131, R132). A fire finds `now` at its own due time: the scheduler
sets it (Machine/Scheduler.lean). -/

namespace Sys2Proof.Machine

open Host (Outcome)

/-- `dispatch(k)` (R129): the handler a fired timer is routed to. -/
def dispatchTimer : TimerKind → Instr
  | .video => .videoFire
  | .sound => .soundFire

/-- Video-timer fire (R131): the next scanline, the flyback line with its edge, and the next fire a scanline later. `GEO.valid`
holds here in every run (R126; log 12). -/
def execVideoFire (s : State) : Outcome State Fault Refusal :=
  .next ((s.setVline ((s.vline + 1) % s.geo.vt)).updateFlyback.arm .video (s.geo.tLine.map (s.now + ·)))

/-- Sound-timer fire (R132): one `SoundDrq`, and the next fire a period later. -/
def execSoundFire (s : State) : Outcome State Fault Refusal :=
  .next ((s.emit .soundDrq).arm .sound (some (s.now + soundPeriod s.cfg s.sfr)))

end Sys2Proof.Machine
end

