-- ==== Sys2Proof/Machine/Dispatch.lean ====
section
/-! DEFINITION. The meaning of every instruction, one arm each. -/

namespace Sys2Proof.Machine

def exec (i : Instr) (s : State) : Host.Outcome State Fault Refusal :=
  match i with
  | .palMain n value => Sys2Proof.Machine.execPalMain n value s
  | .border value => Sys2Proof.Machine.execBorder value s
  | .curpal1 value => Sys2Proof.Machine.execCurpal1 value s
  | .curpal2 value => Sys2Proof.Machine.execCurpal2 value s
  | .curpal3 value => Sys2Proof.Machine.execCurpal3 value s
  | .pal8 value => Sys2Proof.Machine.execPal8 value s
  | .palidx value => Sys2Proof.Machine.execPalidx value s
  | .holeGen1 value => Sys2Proof.Machine.execHoleGen1 value s
  | .hole value => Sys2Proof.Machine.execHole value s
  | .stereo ch value => Sys2Proof.Machine.execStereo ch value s
  | .crtcHcr value => Sys2Proof.Machine.execCrtcHcr value s
  | .crtcHswr value => Sys2Proof.Machine.execCrtcHswr value s
  | .crtcHbsr value => Sys2Proof.Machine.execCrtcHbsr value s
  | .crtcHber value => Sys2Proof.Machine.execCrtcHber value s
  | .crtcHdsr value => Sys2Proof.Machine.execCrtcHdsr value s
  | .crtcHder value => Sys2Proof.Machine.execCrtcHder value s
  | .crtcHcsr value => Sys2Proof.Machine.execCrtcHcsr value s
  | .crtcHcer value => Sys2Proof.Machine.execCrtcHcer value s
  | .crtcVcr value => Sys2Proof.Machine.execCrtcVcr value s
  | .crtcVswr value => Sys2Proof.Machine.execCrtcVswr value s
  | .crtcVbsr value => Sys2Proof.Machine.execCrtcVbsr value s
  | .crtcVber value => Sys2Proof.Machine.execCrtcVber value s
  | .crtcVdsr value => Sys2Proof.Machine.execCrtcVdsr value s
  | .crtcVder value => Sys2Proof.Machine.execCrtcVder value s
  | .crtcVcsr value => Sys2Proof.Machine.execCrtcVcsr value s
  | .crtcVcer value => Sys2Proof.Machine.execCrtcVcer value s
  | .sfr value => Sys2Proof.Machine.execSfr value s
  | .ctrl value => Sys2Proof.Machine.execCtrl value s
  | .writeVram offset byte => Sys2Proof.Machine.execWriteVram offset byte s
  | .writeCram offset byte => Sys2Proof.Machine.execWriteCram offset byte s
  | .writeDac channel sample => Sys2Proof.Machine.execWriteDac channel sample s
  | .clearDac channel => Sys2Proof.Machine.execClearDac channel s
  | .dacLevel channel => Sys2Proof.Machine.execDacLevel channel s
  | .flybackR => Sys2Proof.Machine.execFlybackR s
  | .render surface clip => Sys2Proof.Machine.execRender surface clip s
  | .reset => Sys2Proof.Machine.execReset s
  | .videoFire => Sys2Proof.Machine.execVideoFire s
  | .soundFire => Sys2Proof.Machine.execSoundFire s

end Sys2Proof.Machine
end

