-- ==== Sys2Proof/Machine/Scheduler.lean ====
section
/-! DEFINITION. The host's virtual-time scheduler: which step the relation of 45_scheduler.md R125 takes next, the instruction
it runs, and the state that instruction finds. -/

namespace Sys2Proof.Machine

/-- The time is not before the time of a pending fire: `never`, or a time at least `t`. -/
def notBefore (due : Option Time) (t : Time) : Bool :=
  match due with
  | none => true
  | some d => decide (t ≤ d)

/-- `due_ok(S, t)`: no timer of S is due strictly before t (R125). -/
def State.dueOk (s : State) (t : Time) : Bool := notBefore s.dueVideo t && notBefore s.dueSound t

/-- `Host(t, op)` is enabled (R125 (a)). -/
def State.hostEnabled (s : State) (t : Time) : Bool := decide (s.now ≤ t) && s.dueOk t

/-- `Fire(k)` is enabled (R125 (b)). -/
def State.fireEnabled (s : State) (k : TimerKind) : Bool :=
  match s.due k with
  | none => false
  | some t => s.dueOk t

/-- The program's next host step is enabled and due strictly before the timer: a fire taken now would pass it by, and R128's
runs take only the fires they must (log 6). -/
def State.hostBefore (s : State) (k : TimerKind) : Bool :=
  match s.program, s.due k with
  | h :: _, some t => s.hostEnabled h.time && decide (h.time < t)
  | _, _ => false

/-- The steps of one kind that R125 enables here and a run of the program (R128) takes next. -/
def State.mayTake (s : State) : Label → Bool
  | .host =>
    match s.program with
    | [] => false
    | h :: _ => s.hostEnabled h.time
  | .fire k => s.fireEnabled k && !s.hostBefore k

/-- The steps a run may take next. More than one only at one virtual time (R125, R137, R154). -/
def State.candidates (s : State) : List Label :=
  [Label.host, .fire .video, .fire .sound].filter s.mayTake

/-- One of the candidates: the only one, or, of several, the one the choice names modulo their number. -/
def pickLabel (choice : Nat) : List Label → Option Label
  | [] => none
  | [l] => some l
  | l :: m :: ls => (l :: m :: ls)[choice % (ls.length + 2)]?

/-- How many ties have been met after taking a step from these candidates. -/
def tiesAfter (n : Nat) : List Label → Nat
  | [] => n
  | [_] => n
  | _ :: _ :: _ => n + 1

/-- The instruction a step runs: the decoded host call (R66), or the handler of the fired timer (R129). -/
def State.labelInstr (s : State) : Label → Option Instr
  | .host =>
    match s.program with
    | [] => none
    | h :: _ => some (decodeCall s.cfg.variant h.call)
  | .fire k => some (dispatchTimer k)

/-- The virtual time of a step (R125): the host step's time, or the fire's due time. -/
def State.labelTime (s : State) : Label → Time
  | .host =>
    match s.program with
    | [] => s.now
    | h :: _ => h.time
  | .fire k => (s.due k).getD s.now

/-- The host steps that remain after a step. -/
def State.programAfter (s : State) : Label → List HostStep
  | .host => s.program.tail
  | .fire _ => s.program

/-- `S with now := t` (R125), with the step taken off the program and a tie counted: the state the instruction finds. -/
def State.prepare (s : State) (l : Label) : State :=
  { s with now := s.labelTime l, program := s.programAfter l, ties := tiesAfter s.ties s.candidates }

/-- Why no step is enabled (log 7). -/
def State.stuckReason (s : State) : Fault :=
  match s.program with
  | [] => .noStepEnabled
  | _ :: _ => .hostCallOverdue

/-- The program with a register write, given as the `nbits` bits of `w`, as its next host step, at `now` (log 5). -/
def State.loadWord (s : State) (nbits w : Nat) : State :=
  { s with program := ⟨s.now, writeOfFrame (frameOfBits nbits w)⟩ :: s.program }

end Sys2Proof.Machine
end

