-- ==== Sys2Proof/Machine/Step.lean ====
section
/-! DEFINITION. One step of the machine (45_scheduler.md R125). -/

namespace Sys2Proof.Machine

/-- Take a step of the given kind: run its instruction in the state prepared for it. -/
def takeStep (l : Label) (s : State) : Host.Outcome State Fault Refusal :=
  match s.labelInstr l with
  | none => .fault s.stuckReason
  | some i => exec i (s.prepare l)

/-- A step in which a tie, if there is one, goes the way of the choice. -/
def stepWith (choice : Nat) (s : State) : Host.Outcome State Fault Refusal :=
  match pickLabel choice s.candidates with
  | none => .fault s.stuckReason
  | some l => takeStep l s

/-- A step. The order of steps at one virtual time is open (R125, R137): the free value `Config.tieChoice` (log 6). -/
def step (s : State) : Host.Outcome State Fault Refusal := stepWith (Config.tieChoice s.ties) s

/-- The state with a register write as the next host step: the `nbits` bits of `w`, bit 0 being `address[0]`, the bits above
zero (log 5). -/
def State.withFetchWord (s : State) (nbits w : Nat) : State := s.loadWord nbits w

end Sys2Proof.Machine
end

