-- ==== Sys2Proof/Machine/HostProgram.lean ====
section
/-! DEFINITION. The host-program notation of 30_encoding.md R64 and its pseudo-instructions (R65): lines, and the list of
host steps (R128) they stand for. -/

namespace Sys2Proof.Machine

/-- A line of a host program (R64). `RENDER`'s fresh surface is the host's, so it is written out. -/
inductive Line where
  /-- `@t` -/
  | at_ (t : Time)
  /-- `WR a, v` -/
  | wr (a v : Word)
  /-- `VRAM o, b` -/
  | vram (o b : Nat)
  /-- `CRAM o, b` -/
  | cram (o b : Nat)
  /-- `DAC c, s` -/
  | dac (c x : Nat)
  /-- `DACCLR c` -/
  | dacclr (c : Nat)
  /-- `DACLVL c` -/
  | daclvl (c : Nat)
  /-- `FLY` -/
  | fly
  /-- `RENDER Ws, Hs, cx, cy, cw, ch` -/
  | render (sf : Surface) (clip : Clip)
  /-- `RESET` -/
  | reset
  deriving DecidableEq, Repr

/-- The call a line makes; `@t` makes none (R64). -/
def Line.call : Line → Option Call
  | .at_ _ => none
  | .wr a v => some (.write a v)
  | .vram o b => some (.writeVram o b)
  | .cram o b => some (.writeCram o b)
  | .dac c x => some (.writeDac c x)
  | .dacclr c => some (.clearDac c)
  | .daclvl c => some (.dacLevel c)
  | .fly => some .flybackR
  | .render sf clip => some (.render sf clip)
  | .reset => some .reset

/-- The virtual time after a line (R64). -/
def Line.timeAfter (t : Time) : Line → Time
  | .at_ t' => t'
  | _ => t

/-- The host steps of a program that starts at time `t` (R64, R128). -/
def assemble (t : Time) : List Line → List HostStep
  | [] => []
  | l :: ls =>
    match l.call with
    | none => assemble (l.timeAfter t) ls
    | some c => ⟨t, c⟩ :: assemble t ls

/-! ### Pseudo-instructions (R65) -/

/-- The number of a CRTC slot (R21). -/
def slotIndex : CrtcSlot → Nat
  | .hcr => 0
  | .hswr => 1
  | .hbsr => 2
  | .hber => 3
  | .hdsr => 4
  | .hder => 5
  | .hcsr => 6
  | .hcer => 7
  | .vcr => 8
  | .vswr => 9
  | .vbsr => 10
  | .vber => 11
  | .vdsr => 12
  | .vder => 13
  | .vcsr => 14
  | .vcer => 15

/-- `WR.CRTC name, v` -/
def wrCrtc (k : CrtcSlot) (v : Word) : Line := .wr (0x80#32 + BitVec.ofNat 32 (4 * slotIndex k)) v

/-- `WR.CTRL pcs, bppcode, il` -/
def wrCtrl (pcs bppcode il : Word) : Line := .wr 0xE0#32 ((il <<< 6) ||| (bppcode <<< 2) ||| pcs)

/-- `WR.CTRL2 pcs, bppcode, il, sdac` (GEN2) -/
def wrCtrl2 (pcs bppcode il sdac : Word) : Line :=
  .wr 0xE0#32 ((sdac <<< 8) ||| (il <<< 6) ||| (bppcode <<< 2) ||| pcs)

/-- `WR.PAL i, r4, g4, b4` -/
def wrPal (i r4 g4 b4 : Word) : Line := .wr (4#32 * i) ((b4 <<< 8) ||| (g4 <<< 4) ||| r4)

/-- `WR.BORDER r4, g4, b4` -/
def wrBorder (r4 g4 b4 : Word) : Line := .wr 0x40#32 ((b4 <<< 8) ||| (g4 <<< 4) ||| r4)

/-- `WR.CUR ci, r4, g4, b4` -/
def wrCur (ci r4 g4 b4 : Word) : Line := .wr (0x40#32 + 4#32 * ci) ((b4 <<< 8) ||| (g4 <<< 4) ||| r4)

/-- `WR.PAL8 r8, g8, b8` (GEN2) -/
def wrPal8 (r8 g8 b8 : Word) : Line := .wr 0x50#32 ((b8 <<< 16) ||| (g8 <<< 8) ||| r8)

/-- `WR.PALIDX i` (GEN2) -/
def wrPalidx (i : Word) : Line := .wr 0x54#32 i

/-- `WR.PAN ch, p` -/
def wrPan (ch p : Word) : Line := .wr (0x60#32 + 4#32 * ch) p

/-- `WR.SFR n` -/
def wrSfr (n : Word) : Line := .wr 0xC0#32 n

/-- The state with a host program loaded, its lines starting at `now` (R128; log 5). -/
def State.load (s : State) (lines : List Line) : State := { s with program := assemble s.now lines }

end Sys2Proof.Machine
end

