-- ==== Sys2Proof/Machine/Run.lean ====
section
/-! DEFINITION. A run of a host program (45_scheduler.md R128): the machine's steps up to the program's last host step, after
which the run is over. -/

namespace Sys2Proof.Machine

/-- How a run stands when its steps are counted out. -/
inductive RunStatus where
  /-- the last host step has been taken, in this state -/
  | ended (s : State)
  /-- host steps are still to come -/
  | running (s : State)
  /-- no step was enabled (log 7) -/
  | stopped (why : Fault)
  /-- an instruction without a meaning -/
  | refused (why : Refusal)
  deriving DecidableEq, Repr

/-- The run of the state's host program, at most so many steps of it, each tie going the way of the choices given for it (R128). With
no host step left it is over: no timer step is taken then, though `step` would go on (R127). -/
def runProgram (choice : Nat → Nat) : Nat → State → RunStatus
  | 0, s =>
    match s.program with
    | [] => .ended s
    | _ :: _ => .running s
  | k + 1, s =>
    match s.program with
    | [] => .ended s
    | _ :: _ =>
      match stepWith (choice s.ties) s with
      | .next t => runProgram choice k t
      | .fault r => .stopped r
      | .refused r => .refused r

/-- The machine's own run: ties go the way of the free value `Config.tieChoice` (log 6). -/
def State.run (s : State) (steps : Nat) : RunStatus := runProgram Config.tieChoice steps s

end Sys2Proof.Machine
end

