-- ==== Sys2Proof/Safety.lean ====
section
/-! DEFINITION. The terms of claims about steps and runs: the step relation of 45_scheduler.md R125 as a relation, the
invariant (R126 and the invariants of 10_state.md), who may write which state, and the host's duties
(70_reset_and_hazards.md section 3), which are never faults of the device. -/

namespace Sys2Proof.Machine

open Host (Outcome)

/-! ### The step relation (R125) -/

/-- No timer of the state is due strictly before `t` (R125, `due_ok`). -/
def NoneDueBefore (s : State) (t : Time) : Prop :=
  (∀ d, s.dueVideo = some d → t ≤ d) ∧ (∀ d, s.dueSound = some d → t ≤ d)

/-- No timer of the state is due at or before `t`. -/
def NoneDueBy (s : State) (t : Time) : Prop :=
  (∀ d, s.dueVideo = some d → t < d) ∧ (∀ d, s.dueSound = some d → t < d)

/-- The step relation of R125, the next host step of the program being the `Host(t, op)` it may take. The model's counter of
ties is not the spec's, so any value of it will do. -/
inductive SpecStep (s : State) : Label → State → Prop where
  | host (h : HostStep) (rest : List HostStep) (n : Nat) (t : State) :
      s.program = h :: rest → s.now ≤ h.time → NoneDueBefore s h.time →
      exec (decodeCall s.cfg.variant h.call) { s with now := h.time, program := rest, ties := n } = .next t →
      SpecStep s .host t
  | fire (k : TimerKind) (d : Time) (n : Nat) (t : State) :
      s.due k = some d → NoneDueBefore s d →
      exec (dispatchTimer k) { s with now := d, ties := n } = .next t →
      SpecStep s (.fire k) t

/-- A host program's times do not fall (R128). -/
abbrev programOrdered (p : List HostStep) : Prop := p.Pairwise fun h h' => h.time ≤ h'.time

/-- The state's host program can be run from here: its times do not fall, and none lies before `now` (R128, R125 (a)). -/
structure ProgramReady (s : State) : Prop where
  ordered : programOrdered s.program
  ahead : ∀ h ∈ s.program, s.now ≤ h.time

/-- `k` steps of the machine, each tie going the way of the choices given for it, whatever is left of the program. -/
def runWith (choice : Nat → Nat) : Nat → State → Outcome State Fault Refusal
  | 0, s => .next s
  | k + 1, s =>
    match stepWith (choice s.ties) s with
    | .next s' => runWith choice k s'
    | .fault r => .fault r
    | .refused r => .refused r

/-- The runs of a host program (R128), from its first state to its last: runs of the step relation R125 that take the program's host
steps in order and end with the last of them, no timer step after it. -/
inductive ProgramRun : State → State → Prop where
  | ended (s : State) : s.program = [] → ProgramRun s s
  | step (s t u : State) (l : Label) : s.program ≠ [] → SpecStep s l t → ProgramRun t u → ProgramRun s u

/-- R154: a host whose result must not depend on the order of equal times does not call at a timer's due time. -/
def DutyOffDueTimes (s : State) (h : HostStep) : Prop := s.dueVideo ≠ some h.time ∧ s.dueSound ≠ some h.time

/-- R128's two conditions, in the states of a run's first `k` steps: no timer is due at the time of the next host step, and the two
timers are not due at one time before it. -/
def TimesApart (choice : Nat → Nat) : Nat → State → Prop
  | 0, _ => True
  | k + 1, s =>
    ∀ h rest, s.program = h :: rest →
      DutyOffDueTimes s h ∧ (∀ d, s.dueVideo = some d → s.dueSound = some d → ¬ d < h.time) ∧
        ∀ s', stepWith (choice s.ties) s = .next s' → TimesApart choice k s'

/-! ### The invariant -/

/-- What holds after construction and every step: R126 (1 to 4), R28, R29, R31, the field widths of R21 and R22, the palette's
size (R25), the silence of an inactive channel (R121), and the canonical form of the buffers, inside their sizes (R26, R27). -/
structure Inv (s : State) : Prop where
  cfgWf : s.cfg.wf = true
  crtcMasked : ∀ k, (s.crtc.get k).toNat < 2 ^ s.cfg.crtcBits
  ctrlMasked : s.ctrl &&& ctrlMask s.cfg.variant = s.ctrl
  palSize : s.pal.length = nPal s.cfg.variant
  vramWf : Memory.wf s.vram
  vramWithin : Memory.within s.vram s.cfg.vramBits
  cramWf : Memory.wf s.cram
  cramWithin : Memory.within s.cram s.cfg.cramBits
  gains : ∀ c, (s.dacRead c).gainL = gainLeft s.cfg (s.dacRead c).pan ∧
    (s.dacRead c).gainR = gainRight s.cfg (s.dacRead c).pan
  silent : ∀ c, (s.dacRead c).active = false →
    (s.dacRead c).sample = 0 ∧ (s.dacRead c).outL = 0 ∧ (s.dacRead c).outR = 0
  geoExact : s.geo = geometry s.cfg s.crtc s.ctrl
  vlineBound : s.geo.valid = true → s.vline < s.geo.vt
  dueFuture : NoneDueBefore s s.now
  videoValid : s.dueVideo ≠ none → s.geo.valid = true
  soundPositive : s.dueSound ≠ none → 0 < soundPeriod s.cfg s.sfr

/-! ### Words for claims about instructions -/

/-- The three regions of the palette table (R25). -/
inductive PalRegion where
  | main
  | border
  | cursor
  deriving DecidableEq, Repr

/-- The entry lies in the region: `[MAIN_BASE, MAIN_BASE + N_MAIN)`, `BORDER_BASE`, `[CURSOR_BASE, CURSOR_BASE + 3)` (R101). -/
def InRegion (v : Variant) (e : Nat) : PalRegion → Prop
  | .main => mainBase v ≤ e ∧ e < mainBase v + nMain v
  | .border => e = borderBase v
  | .cursor => cursorBase v ≤ e ∧ e < cursorBase v + 3

/-- The write of a CRTC slot (R79). -/
def crtcInstrOf : CrtcSlot → Word → Instr
  | .hcr => .crtcHcr
  | .hswr => .crtcHswr
  | .hbsr => .crtcHbsr
  | .hber => .crtcHber
  | .hdsr => .crtcHdsr
  | .hder => .crtcHder
  | .hcsr => .crtcHcsr
  | .hcer => .crtcHcer
  | .vcr => .crtcVcr
  | .vswr => .crtcVswr
  | .vbsr => .crtcVbsr
  | .vber => .crtcVber
  | .vdsr => .crtcVdsr
  | .vder => .crtcVder
  | .vcsr => .crtcVcsr
  | .vcer => .crtcVcer

/-- The number of the word of the register window an address reaches, `A / 4` (R38, R50): bits [31:8] and [1:0] do not count. -/
def wordNumber (address : Word) : Nat := address.toNat % 256 / 4

/-- The colour is the one a 4bpp palette raw value stands for (R54, R97). -/
def Colour4 (c : Rgb) (x : Word) : Prop :=
  c.r.toNat = x.toNat % 16 * 17 ∧ c.g.toNat = x.toNat / 16 % 16 * 17 ∧ c.b.toNat = x.toNat / 256 % 16 * 17

/-- The colour is the one an 8bpp palette raw value stands for (R55, R98). -/
def Colour8 (c : Rgb) (x : Word) : Prop :=
  c.r.toNat = x.toNat % 256 ∧ c.g.toNat = x.toNat / 256 % 256 ∧ c.b.toNat = x.toNat / 65536 % 256

/-- The table entry comes before another for a bit depth and a clock source, in the order of R71. -/
def EntryBefore (b : Bpp) (s : BitVec 2) (e f : PixClkEntry) : Prop :=
  bppDistance b e.bpp < bppDistance b f.bpp ∨ bppDistance b e.bpp = bppDistance b f.bpp ∧
    (pcsDistance s e.pcs < pcsDistance s f.pcs ∨ pcsDistance s e.pcs = pcsDistance s f.pcs ∧
      (bppBits e.bpp < bppBits f.bpp ∨ bppBits e.bpp = bppBits f.bpp ∧ e.pcs.toNat < f.pcs.toNat))

/-! ### The host's duties, never faults of the device -/

/-- R147: after `ResChange(g)` the host passes a surface of `g.ht × g.vt` pixels with the clip `(0, 0, g.ht, g.vt)`. -/
def DutyResized (g : Geo) (sf : Surface) (clip : Clip) : Prop :=
  sf.width = g.ht ∧ sf.height = g.vt ∧ clip = ⟨0, 0, g.ht, g.vt⟩

/-- R148: the clip covers the surface. -/
def DutyWholeSurface (sf : Surface) (clip : Clip) : Prop :=
  clip.cx ≤ 0 ∧ clip.cy ≤ 0 ∧ (sf.width : Int) ≤ clip.cx + clip.cw ∧ (sf.height : Int) ≤ clip.cy + clip.ch

/-- R149: the host answers a DRQ at `t` on a channel by `write_dac`, or `clear_dac` on an underrun, before the next at `t'`. -/
def DutyAnswersDrq (p : List HostStep) (c : BitVec 3) (t t' : Time) : Prop :=
  ∃ h ∈ p, t ≤ h.time ∧ h.time < t' ∧
    ((∃ ch x, h.call = .writeDac ch x ∧ channelArg ch = c) ∨ ∃ ch, h.call = .clearDac ch ∧ channelArg ch = c)

end Sys2Proof.Machine
end

