-- ==== Sys2Proof/Certificates/Slice0/Obligations.lean ====
section
/-! DEFINITION. The statements for the provers. Numbers R<n> are rules of spec/; "log n" is notes/assumptions/n.md. -/

open Sys2Proof Sys2Proof.Machine

/-! ### Decoding and encoding -/

/-- R52, R53, R38, R50: the address map, row by row, on every variant, for every address that reaches the word. -/
def Obligations.AddressMapDecodesEveryWord : Prop :=
  ∀ (v : Variant) (a x : Word),
    (∀ i : BitVec 4, wordNumber a = i.toNat → decodeWrite v a x = .palMain i x) ∧
    (wordNumber a = 16 → decodeWrite v a x = .border x) ∧
    (wordNumber a = 17 → decodeWrite v a x = .curpal1 x) ∧
    (wordNumber a = 18 → decodeWrite v a x = .curpal2 x) ∧
    (wordNumber a = 19 → decodeWrite v a x = .curpal3 x) ∧
    (wordNumber a = 20 → decodeWrite v a x = if v = .gen2 then .pal8 x else .holeGen1 x) ∧
    (wordNumber a = 21 → decodeWrite v a x = if v = .gen2 then .palidx x else .holeGen1 x) ∧
    (wordNumber a = 22 ∨ wordNumber a = 23 → decodeWrite v a x = .hole x) ∧
    (∀ ch : BitVec 3, wordNumber a = 24 + ch.toNat → decodeWrite v a x = .stereo ch x) ∧
    (∀ k : CrtcSlot, wordNumber a = 32 + slotIndex k → decodeWrite v a x = crtcInstrOf k x) ∧
    (48 ≤ wordNumber a ∧ wordNumber a < 56 → decodeWrite v a x = .sfr x) ∧
    (56 ≤ wordNumber a → decodeWrite v a x = .ctrl x)

/-- R61: every write decodes to exactly one operation: one row of the opcode table covers it on the variant, and the decoder's
instruction is that row's and exists on the variant. -/
def Obligations.EveryWriteIsExactlyOneTableRow : Prop :=
  ∀ (v : Variant) (a x : Word),
    ∃ r ∈ opcodeRows, r.covers v (a.extractLsb' 0 8) = true ∧
      (∀ q ∈ opcodeRows, q.covers v (a.extractLsb' 0 8) = true → q = r) ∧
      (decodeWrite v a x).mnemonic = r.mnemonic ∧ (decodeWrite v a x).wf v = true

/-- Writes taken from the vectors (95_test_vectors.md V40.1, V40.3, V40.5, V42.6, V42.10 and the pan write of V44.11) decode to what
the vectors name. The last clause gives V40.1's write as bytes: that frame is the model's own choice (log 9), not the vectors'. -/
def Obligations.WrittenOutWritesDecode : Prop :=
  decodeWrite .gen1 0x10000084#32 0xFFFF0040#32 = .crtcHswr 0xFFFF0040#32 ∧
  decodeWrite .gen1 0x14#32 0x00F#32 = .palMain 5#4 0x00F#32 ∧
  decodeWrite .gen1 0x50#32 0xFFFFFF#32 = .holeGen1 0xFFFFFF#32 ∧
  decodeWrite .gen2 0x50#32 0x0000FF#32 = .pal8 0x0000FF#32 ∧
  decodeWrite .gen2 0x54#32 254#32 = .palidx 254#32 ∧
  decodeWrite .gen1 0x64#32 1#32 = .stereo 1#3 1#32 ∧
  decodeWrite .gen1 0xDC#32 20#32 = .sfr 20#32 ∧
  decodeWrite .gen2 0xFC#32 0x08#32 = .ctrl 0x08#32 ∧
  decodeBytes .gen1 [0x84, 0x00, 0x00, 0x10, 0x40, 0x00, 0xFF, 0xFF] = .instr (.crtcHswr 0xFFFF0040#32) []

/-- Decode and encode agree: the call that encodes an instruction of the variant decodes to it, and every instruction but the
two timer fires, which no host calls (R9), has such a call. -/
def Obligations.DecodeOfEncodeIsTheInstruction : Prop :=
  ∀ (v : Variant) (i : Instr), i.wf v = true →
    (∀ c, encode i = some c → decodeCall v c = i) ∧
    (encode i = none ↔ i = .videoFire ∨ i = .soundFire)

/-- The byte frame of a register write decodes to it, whatever bytes follow, and fewer than eight bytes are rejected by name.
The frame is the model's own (log 9). -/
def Obligations.FrameOfAWriteDecodesToIt : Prop :=
  (∀ (v : Variant) (i : Instr) (bs rest : List Byte), i.wf v = true → encodeBytes i = some bs →
    decodeBytes v (bs ++ rest) = .instr i rest) ∧
  ∀ (v : Variant) (bs : List Byte), bs.length < 8 → decodeBytes v bs = .rejected .truncated

/-- What a host calls exists on the variant: no call reaches an instruction another variant has (R24, R53). -/
def Obligations.EveryCallIsAnInstructionOfTheVariant : Prop :=
  ∀ (v : Variant) (c : Call), (∀ sf clip, c = .render sf clip → sf.wf = true) → (decodeCall v c).wf v = true

/-! ### Steps and runs -/

/-- A step runs the decoded instruction: with a host call enabled and no timer due by its time, the step is `exec` of the decoded
call, at its time, the call taken off the program (R66, R125 (a)). -/
def Obligations.StepRunsTheDecodedCall : Prop :=
  ∀ (s : State) (h : HostStep) (rest : List HostStep), s.program = h :: rest → s.now ≤ h.time → NoneDueBy s h.time →
    step s = exec (decodeCall s.cfg.variant h.call) { s with now := h.time, program := rest }

/-- A step fires a timer that is due alone: before the other timer, and before the next host call (or with that call's time
already past); it runs the timer's own handler at the due time (R125 (b), R129). -/
def Obligations.StepFiresTheTimerThatIsDue : Prop :=
  ∀ (s : State) (k : TimerKind) (d : Time), s.due k = some d → (∀ j e, j ≠ k → s.due j = some e → d < e) →
    (∀ h rest, s.program = h :: rest → d < h.time ∨ h.time < s.now) →
    step s = exec (match k with | .video => .videoFire | .sound => .soundFire) { s with now := d }

/-- A register write loaded as the next host call is what the next step runs, when no timer is due at `now` (log 5). -/
def Obligations.LoadedWriteRunsNext : Prop :=
  ∀ (s : State) (address value : Word), NoneDueBy s s.now →
    step (s.withFetchWord 64 (address.toNat + 2 ^ 32 * value.toNat)) = exec (decodeWrite s.cfg.variant address value) s

/-- R125: every step of the machine is a step of the relation, whichever order equal times take. -/
def Obligations.EveryStepIsAStepOfTheRelation : Prop :=
  ∀ (choice : Nat) (s t : State), stepWith choice s = .next t → ∃ l, SpecStep s l t

/-- The orders R125 leaves open are all admitted: any step the relation has, but a fire that would pass an enabled host call by
(log 6), is taken under some choice. -/
def Obligations.EveryOrderOfEqualTimesIsAdmitted : Prop :=
  ∀ (s : State),
    (∀ h rest, s.program = h :: rest → s.now ≤ h.time → NoneDueBefore s h.time →
      ∃ choice t, stepWith choice s = exec (decodeCall s.cfg.variant h.call) { s with now := h.time, program := rest, ties := t }) ∧
    (∀ k d, s.due k = some d → NoneDueBefore s d →
      (∀ h rest, s.program = h :: rest → s.now ≤ h.time → d ≤ h.time) →
      ∃ choice t, stepWith choice s = exec (dispatchTimer k) { s with now := d, ties := t })

/-- R127: a step goes on exactly where R125 has a step, and where it has none the step stops by name, never refusing (log 7). -/
def Obligations.StepStopsOnlyWhereNoStepIsEnabled : Prop :=
  ∀ (s : State),
    ((∃ t, step s = .next t) ↔ ∃ l t, SpecStep s l t) ∧
    (s.program = [] → s.dueVideo = none → s.dueSound = none → step s = .fault .noStepEnabled) ∧
    (∀ h rest, s.program = h :: rest → h.time < s.now → s.dueVideo = none → s.dueSound = none →
      step s = .fault .hostCallOverdue)

/-- R128's conditions and what it derives from them: when no timer is due at the next call's time and the two timers are not due at one
time before it, in every state of one run, every other run agrees with it step by step; and all runs of the program by the relation
end in one state (the model's count of ties aside, log 6), the history with it. -/
def Obligations.TieFreeRunsAgree : Prop :=
  (∀ (f g : Nat → Nat) (k : Nat) (s : State), ProgramReady s → TimesApart f k s → runProgram f k s = runProgram g k s) ∧
  ∀ (f : Nat → Nat) (s t u : State), Inv s → ProgramReady s → (∀ k, TimesApart f k s) → ProgramRun s t → ProgramRun s u →
    ∃ n, u = { t with ties := n }

/-- R128: a run of a program, and every program has one that comes to its end, ends with the last host step: with no host step left it is
over where it stands, and otherwise its last step is the program's last call, at that call's time, with no timer step after it. -/
def Obligations.RunsEndWithTheLastCall : Prop :=
  (∀ (choice : Nat → Nat) (s : State), Inv s → ProgramReady s → ∃ k t, runProgram choice k s = .ended t) ∧
  ∀ (choice : Nat → Nat) (k : Nat) (s t : State), runProgram choice k s = .ended t →
    t.program = [] ∧ (s.program = [] → t = s) ∧
    ∀ h, s.program.getLast? = some h →
      ∃ m r n, runWith choice m s = .next r ∧ r.program = [h] ∧ t.now = h.time ∧
        exec (decodeCall r.cfg.variant h.call) { r with now := h.time, program := [], ties := n } = .next t

/-- R128: the machine's runs of a program that come to their end are the runs of the relation R125 that take its calls in order: each is
one of them, and each of them is one, under some choices (the model's count of ties aside, log 6). -/
def Obligations.RunsAreTheRunsOfTheRelation : Prop :=
  (∀ (choice : Nat → Nat) (k : Nat) (s t : State), runProgram choice k s = .ended t → ProgramRun s t) ∧
  ∀ (s t : State), Inv s → ProgramRun s t → ∃ choice k n, runProgram choice k s = .ended { t with ties := n }

/-! ### Invariants -/

/-- R126, R28, R29, R31, R25 and the rest of `Inv`: every step keeps the invariant, whichever order equal times take. -/
def Obligations.EveryStepKeepsTheInvariant : Prop :=
  ∀ (choice : Nat) (s t : State), Inv s → stepWith choice s = .next t → Inv t

/-- The invariant holds at construction, for every configuration and contents of the buffers, and in the reset state. -/
def Obligations.InvariantHoldsAtConstruction : Prop :=
  (∀ (c : Config) (vramInit cramInit : Memory), c.wf = true → Memory.wf vramInit → Memory.within vramInit c.vramBits →
    Memory.wf cramInit → Memory.within cramInit c.cramBits → Inv (State.construct c vramInit cramInit)) ∧
  Inv State.reset

/-- R34: `now` never decreases. -/
def Obligations.TimeNeverDecreases : Prop :=
  ∀ (choice : Nat) (s t : State), Inv s → stepWith choice s = .next t → s.now ≤ t.now

/-- R124, R137: a step emits at most one event, at the end of the history, stamped with the step's time. -/
def Obligations.AStepEmitsAtMostOneEvent : Prop :=
  ∀ (choice : Nat) (s t : State), stepWith choice s = .next t →
    t.history = s.history ∨ ∃ e, t.history = s.history ++ [(t.now, e)]

/-- R10: the variant and every parameter are fixed; no step changes them. -/
def Obligations.ConfigurationIsFixed : Prop :=
  ∀ (choice : Nat) (s t : State), stepWith choice s = .next t → t.cfg = s.cfg

/-- R134: every entry point answers a next state, at every operand and in every state; none faults, none refuses. -/
def Obligations.EveryEntryPointCompletes : Prop :=
  ∀ (i : Instr) (s : State), ∃ t, exec i s = .next t

/-! ### Who writes what -/

/-- R21, R22, R23, R24: each register of the register file changes only by its own write, or by reset. -/
def Obligations.RegistersChangeOnlyByTheirWrites : Prop :=
  ∀ (i : Instr) (s t : State), exec i s = .next t →
    (∀ k, t.crtc.get k ≠ s.crtc.get k → i = .reset ∨ ∃ x, i = crtcInstrOf k x) ∧
    (t.ctrl ≠ s.ctrl → i = .reset ∨ ∃ x, i = .ctrl x) ∧
    (t.sfr ≠ s.sfr → i = .reset ∨ ∃ x, i = .sfr x) ∧
    (t.palidx ≠ s.palidx → s.cfg.variant = .gen2 ∧ (i = .reset ∨ ∃ x, i = .pal8 x ∨ i = .palidx x))

/-- R26, R27, R25, R28: the buffers change only by their port, the palette by palette writes and reset, a DAC channel by its own
stereo, sample and clear operations and reset. -/
def Obligations.BuffersPaletteAndChannelsChangeOnlyByTheirOwn : Prop :=
  ∀ (i : Instr) (s t : State), exec i s = .next t →
    (t.vram ≠ s.vram → ∃ o b, i = .writeVram o b) ∧
    (t.cram ≠ s.cram → ∃ o b, i = .writeCram o b) ∧
    (t.pal ≠ s.pal → i = .reset ∨ (∃ n x, i = .palMain n x) ∨ ∃ x, i ∈ [.border x, .curpal1 x, .curpal2 x, .curpal3 x, .pal8 x]) ∧
    (∀ c, t.dacRead c ≠ s.dacRead c → i = .reset ∨ (∃ x, i = .stereo c x) ∨
      ∃ n, n % 8 = c.toNat ∧ (i = .clearDac n ∨ ∃ x, i = .writeDac n x))

/-- R32, R31, R123, R135: the flyback line and the line counter change only by a video fire, a geometry change or reset; the timers
are armed only by their callers; events come only from their three sources; only the three reads answer. -/
def Obligations.LineTimersAndEventsChangeOnlyByTheirOwn : Prop :=
  ∀ (i : Instr) (s t : State), exec i s = .next t →
    (t.flyback ≠ s.flyback → i = .reset ∨ i = .videoFire) ∧
    (t.vline ≠ s.vline ∨ t.dueVideo ≠ s.dueVideo → i = .reset ∨ i = .videoFire ∨ (∃ x, i = .ctrl x) ∨ ∃ k x, i = crtcInstrOf k x) ∧
    (t.geo ≠ s.geo → i = .reset ∨ (∃ x, i = .ctrl x) ∨ ∃ k x, i = crtcInstrOf k x) ∧
    (t.dueSound ≠ s.dueSound →
      i = .reset ∨ i = .soundFire ∨ (∃ x, i = .sfr x) ∨ s.cfg.variant = .gen2 ∧ ∃ x, i = .ctrl x) ∧
    (t.history ≠ s.history → i = .videoFire ∨ i = .soundFire ∨ (∃ x, i = .ctrl x) ∨ ∃ k x, i = crtcInstrOf k x) ∧
    (t.replies ≠ s.replies → i = .flybackR ∨ (∃ c, i = .dacLevel c) ∨ ∃ sf clip, i = .render sf clip)

/-! ### The CRTC timing model -/

/-- R79, R78, R58: a CRTC write stores its field, the bits above masked off, and no other slot; when the geometry changed it is
stored, signalled once, and restarts or stops the video timer; when not, nothing else happens. Every slot, R80 to R95. -/
def Obligations.CrtcWriteStoresAndUpdatesTheGeometry : Prop :=
  ∀ (k : CrtcSlot) (x : Word) (s : State),
    ∃ (t : State) (g : Geo), exec (crtcInstrOf k x) s = .next t ∧ g = geometry s.cfg t.crtc s.ctrl ∧
      (t.crtc.get k).toNat = x.toNat % 2 ^ s.cfg.crtcBits ∧ (∀ j, j ≠ k → t.crtc.get j = s.crtc.get j) ∧
      (g = s.geo → t = { s with crtc := t.crtc }) ∧
      (g ≠ s.geo → t =
        { s with
          crtc := t.crtc
          geo := g
          history := s.history ++ [(s.now, .resChange g)]
          vline := if g.valid then s.vline % g.vt else 0
          dueVideo := if g.valid then some (s.now + (g.ht : Rat) / (g.fPix : Rat)) else none })

/-- R86, R87, R94, R95: with the cached geometry exact, a write of a cursor slot stores its field and does nothing else: no event,
no rearm. -/
def Obligations.CursorSlotWritesOnlyStore : Prop :=
  ∀ (k : CrtcSlot) (x : Word) (s : State), k ∈ [CrtcSlot.hcsr, .hcer, .vcsr, .vcer] →
    s.geo = geometry s.cfg s.crtc s.ctrl →
    ∃ t, exec (crtcInstrOf k x) s = .next t ∧ t = { s with crtc := t.crtc } ∧
      (t.crtc.get k).toNat = x.toNat % 2 ^ s.cfg.crtcBits ∧ ∀ j, j ≠ k → t.crtc.get j = s.crtc.get j

/-- R96, R60: a control write stores the variant's bits of the value and updates the geometry; on GEN2 it restarts the sound timer, on
the other variants it leaves it alone. -/
def Obligations.ControlWriteStoresAndUpdates : Prop :=
  ∀ (x : Word) (s : State),
    ∃ (t : State) (g : Geo) (p : Time), exec (.ctrl x) s = .next t ∧
      t.ctrl = x &&& (if s.cfg.variant = .gen2 then 0x14F#32 else 0x04F#32) ∧ g = geometry s.cfg s.crtc t.ctrl ∧
      p = (s.cfg.soundDiv : Rat) * (s.sfr.toNat : Rat) * s.cfg.soundUnit ∧
      t.dueSound = (if s.cfg.variant = .gen2 then (if 0 < p then some (s.now + p) else none) else s.dueSound) ∧
      (g = s.geo → t = { s with ctrl := t.ctrl, dueSound := t.dueSound }) ∧
      (g ≠ s.geo → t =
        { s with
          ctrl := t.ctrl
          dueSound := t.dueSound
          geo := g
          history := s.history ++ [(s.now, .resChange g)]
          vline := if g.valid then s.vline % g.vt else 0
          dueVideo := if g.valid then some (s.now + (g.ht : Rat) / (g.fPix : Rat)) else none })

/-- R73, R70, R72, R74, R76: the geometry record of the registers, horizontal fields scaled by the factor, vertical ones not. -/
def Obligations.GeometryRecordOfTheRegisters : Prop :=
  ∀ (c : Config) (r : Crtc) (w : Word) (g : Geo), g = geometry c r w →
    g.bpp = effectiveBpp c w ∧ g.factor = hconvOf c g.bpp ∧ g.pcs.toNat = w.toNat % 4 ∧ g.fPix = pixelClock c g.bpp g.pcs ∧
    (g.interlace = true ↔ w.toNat / 64 % 2 = 1) ∧
    g.ht = r.hcr.toNat * g.factor ∧ g.hsw = r.hswr.toNat * g.factor ∧ g.hbs = r.hbsr.toNat * g.factor ∧
    g.hbe = r.hber.toNat * g.factor ∧ g.hds = r.hdsr.toNat * g.factor ∧ g.hde = r.hder.toNat * g.factor ∧
    g.vt = r.vcr.toNat ∧ g.vsw = r.vswr.toNat ∧ g.vbs = r.vbsr.toNat ∧ g.vbe = r.vber.toNat ∧ g.vds = r.vdsr.toNat ∧
    g.vde = r.vder.toNat ∧ g.dispW = (g.hde : Int) - g.hds ∧ g.dispH = (g.vde : Int) - g.vds ∧
    g.bordW = (g.hbe : Int) - g.hbs ∧ g.bordH = (g.vbe : Int) - g.vbs ∧
    (g.valid = true ↔ 1 ≤ g.ht ∧ 1 ≤ g.vt ∧ 1 ≤ g.fPix) ∧
    (g.valid = true → g.tLine = some ((g.ht : Rat) / g.fPix) ∧ g.tFrame = some ((g.vt : Rat) * ((g.ht : Rat) / g.fPix)) ∧
      g.pixelTime = some (1 / (g.fPix : Rat)) ∧ g.frameRate = some ((g.fPix : Rat) / ((g.ht : Rat) * g.vt))) ∧
    (g.valid = false → g.tLine = none ∧ g.tFrame = none)

/-- R68: the effective bit depth is the control word's where it is supported, else the nearest supported one, a tie going to the
smaller. -/
def Obligations.BitDepthFallsBackToTheNearest : Prop :=
  ∀ (c : Config) (w : Word) (b r : Bpp), c.bppSet ≠ [] → bppBits b = 2 ^ (w.toNat / 4 % 4) → r = effectiveBpp c w →
    r ∈ c.bppSet ∧ (b ∈ c.bppSet → r = b) ∧
    ∀ b' ∈ c.bppSet, bppDistance b r < bppDistance b b' ∨ bppDistance b r = bppDistance b b' ∧ bppBits r ≤ bppBits b'

/-- R71: the pixel clock is the table's entry for the bit depth and source where there is one, else that of the nearest entry, and 0 of
an empty table. -/
def Obligations.PixelClockFallsBackToTheNearest : Prop :=
  ∀ (c : Config) (b : Bpp) (p : BitVec 2),
    (c.pixclk = [] → pixelClock c b p = 0) ∧
    (c.pixclk ≠ [] → ∃ e ∈ c.pixclk, pixelClock c b p = e.hz ∧ ∀ f ∈ c.pixclk, ¬ EntryBefore b p f e) ∧
    (∀ hz, (c.pixclk.map fun e => (e.bpp, e.pcs)).Nodup → ⟨b, p, hz⟩ ∈ c.pixclk → pixelClock c b p = hz)

/-- R12 (its HCONV, BPP_SET and PIXCLK rows): with the default parameters a code n selects 2^n bits per pixel and the factor 2^n, and the
source selects 8, 12, 16 or 24 MHz, on every variant. -/
def Obligations.DefaultDepthFactorAndClock : Prop :=
  ∀ (v : Variant) (r : Crtc) (w : Word) (g : Geo), g = geometry (defaultConfig v) r w →
    bppBits g.bpp = 2 ^ (w.toNat / 4 % 4) ∧ g.factor = 2 ^ (w.toNat / 4 % 4) ∧
    g.fPix = [8000000, 12000000, 16000000, 24000000].getD (w.toNat % 4) 0

/-- R146 (1), derived there: the order of two register writes does not matter to the registers and the geometry the device ends with. -/
def Obligations.WriteOrderLeavesTheSameGeometry : Prop :=
  ∀ (j k : CrtcSlot) (x y : Word) (s : State), j ≠ k →
    (∃ t u t' u', exec (crtcInstrOf j x) s = .next t ∧ exec (crtcInstrOf k y) t = .next u ∧
      exec (crtcInstrOf k y) s = .next t' ∧ exec (crtcInstrOf j x) t' = .next u' ∧ u.geo = u'.geo ∧
      u.crtc = u'.crtc ∧ u.ctrl = u'.ctrl) ∧
    (∃ t u t' u', exec (crtcInstrOf j x) s = .next t ∧ exec (.ctrl y) t = .next u ∧
      exec (.ctrl y) s = .next t' ∧ exec (crtcInstrOf j x) t' = .next u' ∧ u.geo = u'.geo ∧
      u.crtc = u'.crtc ∧ u.ctrl = u'.ctrl)

/-- R43 (idempotency): a second identical write to a CRTC slot, a palette entry by address, a stereo register, or, not on GEN2, the control
word leaves the state and the history as the first did. -/
def Obligations.SecondIdenticalWriteChangesNothing : Prop :=
  ∀ (i : Instr) (s : State) (x : Word),
    ((∃ k, i = crtcInstrOf k x) ∨ (∃ n, i = .palMain n x) ∨ i ∈ [.border x, .curpal1 x, .curpal2 x, .curpal3 x] ∨
      (∃ ch, i = .stereo ch x) ∨ i = .ctrl x ∧ s.cfg.variant ≠ .gen2) →
    ∃ t, exec i s = .next t ∧ exec i t = .next t

/-! ### Palette -/

/-- R102, R97: a main palette write stores the converted colour at entry i, and changes nothing else. -/
def Obligations.MainPaletteWriteStoresItsEntry : Prop :=
  ∀ (i : BitVec 4) (x : Word) (s : State), s.pal.length = nPal s.cfg.variant →
    ∃ t c, exec (.palMain i x) s = .next t ∧ t.pal[i.toNat]? = some c ∧ Colour4 c x ∧
      (∀ j, j ≠ i.toNat → t.pal[j]? = s.pal[j]?) ∧ t = { s with pal := t.pal }

/-- R103, R97: a border write stores the border entry (16, and 256 on GEN2), a write of cursor colour ci the entry ci above it, and neither
changes anything else. -/
def Obligations.BorderAndCursorWritesStoreTheirEntry : Prop :=
  ∀ (n : Nat) (i : Instr) (x : Word) (s : State),
    (n, i) ∈ [(0, Instr.border x), (1, .curpal1 x), (2, .curpal2 x), (3, .curpal3 x)] →
    s.pal.length = nPal s.cfg.variant →
    ∃ t c e, e = (if s.cfg.variant = .gen2 then 256 else 16) + n ∧ exec i s = .next t ∧ t.pal[e]? = some c ∧ Colour4 c x ∧
      (∀ j, j ≠ e → t.pal[j]? = s.pal[j]?) ∧ t = { s with pal := t.pal }

/-- R104, R98: on GEN2 a palette data write stores the colour at the latch's entry and advances the latch modulo 256, and changes nothing
else. -/
def Obligations.DirectPaletteWriteStoresAndAdvances : Prop :=
  ∀ (x : Word) (s : State), s.cfg.variant = .gen2 → s.pal.length = nPal s.cfg.variant →
    ∃ t c, exec (.pal8 x) s = .next t ∧ t.pal[s.palidx.toNat]? = some c ∧ Colour8 c x ∧
      (∀ j, j ≠ s.palidx.toNat → t.pal[j]? = s.pal[j]?) ∧ t.palidx.toNat = (s.palidx.toNat + 1) % 256 ∧
      t = { s with pal := t.pal, palidx := t.palidx }

/-- R105: on GEN2 an index write sets the latch to the value's low byte, and changes nothing else. -/
def Obligations.PaletteIndexWriteSetsTheLatch : Prop :=
  ∀ (x : Word) (s : State), s.cfg.variant = .gen2 →
    ∃ t, exec (.palidx x) s = .next t ∧ t.palidx.toNat = x.toNat % 256 ∧ t = { s with palidx := t.palidx }

/-- R67, R63: a write to a hole changes nothing; the holes are 0x58 and 0x5C, and on GEN1 and GEN1_LCD 0x50 and 0x54 too. -/
def Obligations.HoleWritesChangeNothing : Prop :=
  ∀ (s : State) (a x : Word),
    (wordNumber a = 22 ∨ wordNumber a = 23 ∨ s.cfg.variant ≠ .gen2 ∧ (wordNumber a = 20 ∨ wordNumber a = 21) →
      exec (decodeWrite s.cfg.variant a x) s = .next s) ∧
    exec (.hole x) s = .next s ∧ (s.cfg.variant ≠ .gen2 → exec (.holeGen1 x) s = .next s)

/-- The model's choice (log 10): instructions of another variant are holes. PAL8 and PALIDX, which GEN1 and GEN1_LCD do not have, change
nothing there, nor does the hole 0x50 and 0x54 of those variants on GEN2. -/
def Obligations.InstructionsOfAnotherVariantAreHoles : Prop :=
  ∀ (x : Word) (s : State),
    (s.cfg.variant ≠ .gen2 → exec (.pal8 x) s = .next s ∧ exec (.palidx x) s = .next s) ∧
    (s.cfg.variant = .gen2 → exec (.holeGen1 x) s = .next s)

/-- R101 (derived there), R102, R103, R104: every palette write sets exactly one entry, the one its row names, which lies in the table, in
that row's region and in no other. -/
def Obligations.PaletteWriteLandsInOneRegion : Prop :=
  ∀ (i : Instr) (e : Nat) (r : PalRegion) (x : Word) (s : State),
    s.pal.length = nPal s.cfg.variant → i.wf s.cfg.variant = true →
    ((∃ n : BitVec 4, (i, e, r) = (.palMain n x, mainBase s.cfg.variant + n.toNat, .main)) ∨
      (i, e, r) ∈ [(.border x, borderBase s.cfg.variant, .border),
        (.curpal1 x, cursorBase s.cfg.variant, .cursor), (.curpal2 x, cursorBase s.cfg.variant + 1, .cursor),
        (.curpal3 x, cursorBase s.cfg.variant + 2, .cursor), (.pal8 x, mainBase s.cfg.variant + s.palidx.toNat, .main)]) →
    ∃ t c, exec i s = .next t ∧ t.pal = s.pal.set e c ∧ e < s.pal.length ∧
      ∀ q, InRegion s.cfg.variant e q ↔ q = r

/-- R99: an output pixel is the colour's channels under an opaque alpha; on GEN1_LCD the channels of the shaped colour, whatever the
shaping is. -/
def Obligations.OutputPixelPacksTheColour : Prop :=
  ∀ (v : Variant) (c d : Rgb), d = (if v = .gen1Lcd then Config.lcdShapeLcd c else c) →
    (toPixel v c).toNat = 0xFF000000 + d.r.toNat * 65536 + d.g.toNat * 256 + d.b.toNat

/-! ### Compositor -/

/-- R106: a VRAM write stores the byte at the wrapped offset; every other byte of VRAM reads as before, and nothing else changes. -/
def Obligations.VramWriteStoresOneByte : Prop :=
  ∀ (o b : Nat) (s : State), Memory.wf s.vram →
    ∃ t, exec (.writeVram o b) s = .next t ∧
      (∀ a, a % 2 ^ s.cfg.vramBits = o % 2 ^ s.cfg.vramBits → (t.vramRead a).toNat = b % 256) ∧
      (∀ a, a % 2 ^ s.cfg.vramBits ≠ o % 2 ^ s.cfg.vramBits → t.vramRead a = s.vramRead a) ∧
      t = { s with vram := t.vram }

/-- R107: a CRAM write stores the byte at the wrapped offset; every other byte of CRAM reads as before, and nothing else changes. -/
def Obligations.CramWriteStoresOneByte : Prop :=
  ∀ (o b : Nat) (s : State), Memory.wf s.cram →
    ∃ t, exec (.writeCram o b) s = .next t ∧
      (∀ a, a % 2 ^ s.cfg.cramBits = o % 2 ^ s.cfg.cramBits → (t.cramRead a).toNat = b % 256) ∧
      (∀ a, a % 2 ^ s.cfg.cramBits ≠ o % 2 ^ s.cfg.cramBits → t.cramRead a = s.cramRead a) ∧
      t = { s with cram := t.cram }

/-- R108: pixel p of a buffer packed at b bits is, of the byte that holds bit p*b, the b bits below the `p*b mod 8` top ones. -/
def Obligations.UnpackTakesTheTopPixelFirst : Prop :=
  ∀ (s : State) (p : Nat) (d : Bpp) (b : Nat), b = bppBits d →
    (s.unpackVram p b).toNat = (s.vramRead (p * b / 8)).toNat / 2 ^ (8 - b - p * b % 8) % 2 ^ b ∧
    (s.unpackCram p b).toNat = (s.cramRead (p * b / 8)).toNat / 2 ^ (8 - b - p * b % 8) % 2 ^ b

/-- R110: the cursor index is 0 where the cursor is disabled or does not reach, else the two bits of its pixel, four pixels to a byte, the
first in the top bits, row after row from offset 0. -/
def Obligations.CursorIndexReadsItsTwoBits : Prop :=
  ∀ (s : State) (x y hcs n : Nat), hcs = s.crtc.hcsr.toNat * s.geo.factor →
    n = (y - s.crtc.vcsr.toNat) * s.cfg.cursorW + (x - hcs) →
    (¬ s.crtc.vcsr.toNat < s.crtc.vcer.toNat → s.cursorIndex x y = 0) ∧
    (¬ (s.crtc.vcsr.toNat ≤ y ∧ y < s.crtc.vcer.toNat ∧ hcs ≤ x ∧ x < hcs + s.cfg.cursorW) → s.cursorIndex x y = 0) ∧
    (s.crtc.vcsr.toNat ≤ y → y < s.crtc.vcer.toNat → hcs ≤ x → x < hcs + s.cfg.cursorW →
      (s.cursorIndex x y).toNat = (s.cramRead (n / 4)).toNat / 2 ^ (6 - 2 * (n % 4)) % 4)

/-- R111, R109, R100: a pixel is the cursor's colour where the cursor index is not 0, entry `CURSOR_BASE + ci - 1` of the table (17 or 257,
and up); else in the display window the entry its main-image index maps to, rows packed back to back; else the border entry (16 or
256). The default map is the index itself on GEN2, its low nibble elsewhere. -/
def Obligations.PixelIsCursorThenImageThenBorder : Prop :=
  (∀ (s : State) (x y b : Nat) (shown : Prop), b = (if s.cfg.variant = .gen2 then 256 else 16) →
    (shown ↔ s.geo.vds ≤ y ∧ y < s.geo.vde ∧ s.geo.hds ≤ x ∧ x < s.geo.hde) →
    (s.cursorIndex x y ≠ 0 →
      s.pixel x y = toPixel s.cfg.variant (s.palRead (b + 1 + (s.cursorIndex x y).toNat - 1))) ∧
    (s.cursorIndex x y = 0 → shown → ∃ idx e,
      idx = s.unpackVram ((y - s.geo.vds) * (s.geo.hde - s.geo.hds) + (x - s.geo.hds)) (bppBits s.geo.bpp) ∧
      s.cfg.mainMap[idx.toNat]? = some e ∧ s.pixel x y = toPixel s.cfg.variant (s.palRead e)) ∧
    (s.cursorIndex x y = 0 → ¬ shown → s.pixel x y = toPixel s.cfg.variant (s.palRead b))) ∧
  ∀ (v : Variant) (idx : Byte),
    (defaultConfig v).mainMap[idx.toNat]? = some (if v = .gen2 then idx.toNat else idx.toNat % 16)

/-- The source's cursor property (43_compositor.md R110, P4): where the cursor index is 0 the pixel is what it is with the cursor
disabled. -/
def Obligations.CursorIndexZeroNeverObscures : Prop :=
  ∀ (s : State) (x y : Nat), s.cursorIndex x y = 0 →
    s.pixel x y = { s with crtc := s.crtc.set .vcer s.crtc.vcsr }.pixel x y

/-- R112, R148: `render` answers the surface with exactly the pixels of the clip redrawn, each other as the host left it, and changes
nothing else; a clip that covers the surface leaves no pixel undrawn. That the answer goes
to the list `replies` is the model's choice (log 8). -/
def Obligations.RenderRedrawsExactlyTheClip : Prop :=
  ∀ (sf : Surface) (clip : Clip) (s : State), sf.wf = true →
    ∃ t out, exec (.render sf clip) s = .next t ∧ t = { s with replies := s.replies ++ [.surface out] } ∧
      out.width = sf.width ∧ out.height = sf.height ∧ out.wf = true ∧
      (∀ x y, x < sf.width → y < sf.height →
        max 0 clip.cx ≤ (x : Int) → (x : Int) < min (sf.width : Int) (clip.cx + clip.cw) →
        max 0 clip.cy ≤ (y : Int) → (y : Int) < min (sf.height : Int) (clip.cy + clip.ch) →
        out.pixels[y * sf.width + x]? = some (s.pixel x y)) ∧
      (∀ x y, x < sf.width → y < sf.height →
        ¬ (max 0 clip.cx ≤ (x : Int) ∧ (x : Int) < min (sf.width : Int) (clip.cx + clip.cw) ∧
          max 0 clip.cy ≤ (y : Int) ∧ (y : Int) < min (sf.height : Int) (clip.cy + clip.ch)) →
        out.pixels[y * sf.width + x]? = sf.pixels[y * sf.width + x]?) ∧
      (DutyWholeSurface sf clip → ∀ x y, x < sf.width → y < sf.height →
        out.pixels[y * sf.width + x]? = some (s.pixel x y))

/-- The source's palette property (42_palette.md R102, 70_reset_and_hazards.md R150, P3): after a main palette write, a display pixel
whose index maps to the entry, with no cursor pixel over it, is the written colour, with no step between. -/
def Obligations.PaletteWriteShowsInTheNextPixel : Prop :=
  ∀ (i : BitVec 4) (v : Word) (s : State) (x y : Nat), s.pal.length = nPal s.cfg.variant → s.cursorIndex x y = 0 →
    s.inDisplay x y = true → s.cfg.mainMap[(s.mainIndex x y).toNat]? = some i.toNat →
    ∃ t c, exec (.palMain i v) s = .next t ∧ Colour4 c v ∧ t.pixel x y = toPixel s.cfg.variant c

/-! ### Audio -/

/-- R117, R116, R57: a stereo write sets the channel's pan and gain pair and leaves its sample and level, the other channels, and
everything else alone. -/
def Obligations.StereoWriteSetsPanAndGains : Prop :=
  ∀ (ch : BitVec 3) (x : Word) (s : State),
    ∃ t p, p.toNat = x.toNat % 8 ∧ exec (.stereo ch x) s = .next t ∧
      t.dacRead ch =
        { s.dacRead ch with pan := p, gainL := s.cfg.gIn * s.cfg.panL[p.toNat]'(BitVec.isLt p),
                            gainR := s.cfg.gIn * s.cfg.panR[p.toNat]'(BitVec.isLt p) } ∧
      (∀ c, c ≠ ch → t.dacRead c = s.dacRead c) ∧ t = { s with dac := t.dac }

/-- R119, R118, R115, R59: a sound-frequency write sets the latch and restarts the sound timer a period from now, or stops it where the
period is not positive; it changes nothing else. -/
def Obligations.SoundFrequencyWriteRestartsThePeriod : Prop :=
  ∀ (x : Word) (s : State),
    ∃ t p, exec (.sfr x) s = .next t ∧ t.sfr.toNat = x.toNat % 256 ∧
      p = (s.cfg.soundDiv : Rat) * ((x.toNat % 256 : Nat) : Rat) * s.cfg.soundUnit ∧
      (0 < p → t.dueSound = some (s.now + p)) ∧ (¬ 0 < p → t.dueSound = none) ∧
      t = { s with sfr := t.sfr, dueSound := t.dueSound }

/-- R120: a sample write expands the sample and latches the exact products with the channel's gains; the other channels and everything
else stay, and the same write again changes nothing. So too with SDAC set on GEN2 (log 15). -/
def Obligations.SampleWriteLatchesTheLevels : Prop :=
  ∀ (channel sample : Nat) (s : State),
    ∃ t c v, BitVec.toNat c = channel % 8 ∧ s.cfg.lut[sample % 256]? = some v ∧ exec (.writeDac channel sample) s = .next t ∧
      t.dacRead c =
        { s.dacRead c with sample := v, outL := (v.toInt : Rat) * (s.dacRead c).gainL,
                           outR := (v.toInt : Rat) * (s.dacRead c).gainR, active := true } ∧
      (∀ d, d ≠ c → t.dacRead d = s.dacRead d) ∧ t = { s with dac := t.dac } ∧
      exec (.writeDac channel sample) t = .next t

/-- R121: a clear forces the channel's sample and levels to zero and its flag off, keeping pan and gains; everything else stays. Clearing
an inactive channel changes nothing. -/
def Obligations.ClearSilencesOneChannel : Prop :=
  ∀ (channel : Nat) (s : State),
    ∃ t c, BitVec.toNat c = channel % 8 ∧ exec (.clearDac channel) s = .next t ∧
      t.dacRead c = { s.dacRead c with sample := 0, outL := 0, outR := 0, active := false } ∧
      (∀ d, d ≠ c → t.dacRead d = s.dacRead d) ∧ t = { s with dac := t.dac } ∧
      (Inv s → (s.dacRead c).active = false → t = s)

/-- R122, R133: the two reads answer the channel's level and the flyback line, and change nothing else. That an answer goes to the end of
the list `replies` is the model's choice (log 8). -/
def Obligations.ReadsAnswerAndChangeNothing : Prop :=
  ∀ (channel : Nat) (s : State),
    (∃ c, BitVec.toNat c = channel % 8 ∧ exec (.dacLevel channel) s =
      .next { s with replies := s.replies ++ [.level (s.dacRead c).outL (s.dacRead c).outR] }) ∧
    exec .flybackR s = .next { s with replies := s.replies ++ [.flyback s.flyback] }

/-- R113, R114: the default tables: the companding law entry by entry, and the pan gains, whose sum is 2 at every position. -/
def Obligations.DefaultLutAndPanTables : Prop :=
  ∀ v : Variant,
    (∀ s : BitVec 8, (lutRead (defaultConfig v) s).toInt =
      8 * (if s.toNat % 2 = 1 then -(((16 + s.toNat / 2 % 16) * 2 ^ (s.toNat / 32) - 16 : Nat) : Int)
        else (((16 + s.toNat / 2 % 16) * 2 ^ (s.toNat / 32) - 16 : Nat) : Int))) ∧
    (∀ p : BitVec 3, p ≠ 0 → (defaultConfig v).panL[p.toNat]'p.isLt = (7 - (p.toNat : Rat)) / 3 ∧
      (defaultConfig v).panR[p.toNat]'p.isLt = ((p.toNat : Rat) - 1) / 3) ∧
    (defaultConfig v).panL[0] = 1 ∧ (defaultConfig v).panR[0] = 1 ∧
    (∀ p : BitVec 3, (defaultConfig v).panL[p.toNat]'p.isLt + (defaultConfig v).panR[p.toNat]'p.isLt = 2)

/-! ### Timers and reset -/

/-- R131, R130: a video fire in a valid geometry moves to the next scanline, sets the line by the display window, emits an edge exactly when
the line changed, and arms the next fire a scanline later; it changes nothing else. So too with INTERLACE set (log 15). -/
def Obligations.VideoFireStartsTheNextScanline : Prop :=
  ∀ (s : State) (d : Time), s.geo.valid = true → s.geo.tLine = some d →
    ∃ t n fl, n = (s.vline + 1) % s.geo.vt ∧ (fl = true ↔ ¬ (s.geo.vds ≤ n ∧ n < s.geo.vde)) ∧
      exec .videoFire s = .next t ∧
      t = { s with
        vline := n
        flyback := fl
        history := if fl = s.flyback then s.history else s.history ++ [(s.now, .vblankEdge fl)]
        dueVideo := some (s.now + d) }

/-- R132: a sound fire emits one DRQ and arms the next a period later; it changes nothing else. -/
def Obligations.SoundFireEmitsOneDrq : Prop :=
  ∀ (s : State), exec .soundFire s = .next
    { s with
      history := s.history ++ [(s.now, .soundDrq)]
      dueSound := some (s.now + (s.cfg.soundDiv : Rat) * (s.sfr.toNat : Rat) * s.cfg.soundUnit) }

/-- R145: the reset event sets every register, palette entry, channel, the geometry, the line and the timers to their reset values; VRAM,
CRAM, `now` and the history stay, and no event is emitted. -/
def Obligations.ResetLeavesTheResetValues : Prop :=
  ∀ (s : State),
    ∃ t, exec .reset s = .next t ∧
      (∀ k, t.crtc.get k = 0) ∧ t.ctrl = 0 ∧ t.sfr = 0 ∧ (s.cfg.variant = .gen2 → t.palidx = 0) ∧
      (s.cfg.variant ≠ .gen2 → t.palidx = s.palidx) ∧
      t.pal.length = nPal s.cfg.variant ∧ (∀ c ∈ t.pal, c = ⟨0, 0, 0⟩) ∧
      (∀ c, t.dacRead c = ⟨0, s.cfg.gIn * s.cfg.panL[0], s.cfg.gIn * s.cfg.panR[0], 0, 0, 0, false⟩) ∧
      t.geo = geometry s.cfg t.crtc 0 ∧ t.geo.valid = false ∧ t.vline = 0 ∧ t.flyback = false ∧
      t.dueVideo = none ∧ t.dueSound = none ∧
      t = { s with
        crtc := t.crtc, ctrl := t.ctrl, sfr := t.sfr, palidx := t.palidx, pal := t.pal, dac := t.dac, geo := t.geo,
        vline := t.vline, flyback := t.flyback, dueVideo := t.dueVideo, dueSound := t.dueSound }

/-- R145 (derived there): a reset on a fresh device leaves the construction state unchanged. -/
def Obligations.ResetOfAFreshDeviceChangesNothing : Prop :=
  ∀ (c : Config) (vramInit cramInit : Memory),
    exec .reset (State.construct c vramInit cramInit) = .next (State.construct c vramInit cramInit)
end

