-- ==== Sys2Proof/Laws/Geometry.lean ====
section
/-! SUPPORT. The laws of the geometry function (41_crtc.md R68-R76): the least entry of a table, what the record depends on, and
the times of a valid geometry. -/

namespace Sys2Proof.Machine

/-! ### The least member -/

theorem leastBy_eq_none_iff {α : Type} (key : α → Nat) (l : List α) : leastBy key l = none ↔ l = [] := by
  cases l with
  | nil => simp [leastBy]
  | cons a l =>
    simp only [leastBy]
    cases leastBy key l with
    | none => simp
    | some b => by_cases h : key b < key a <;> simp [h]

/-- The answer is a member, and no member has a smaller key. -/
theorem leastBy_spec {α : Type} {key : α → Nat} {l : List α} {a : α} (h : leastBy key l = some a) :
    a ∈ l ∧ ∀ b ∈ l, key a ≤ key b := by
  induction l generalizing a with
  | nil => simp [leastBy] at h
  | cons c l ih =>
    simp only [leastBy] at h
    cases hl : leastBy key l with
    | none =>
      have hnil := (leastBy_eq_none_iff key l).mp hl
      simp only [hl, Option.some.injEq] at h
      subst h hnil
      simp
    | some d =>
      obtain ⟨hd, hmin⟩ := ih hl
      simp only [hl] at h
      split at h <;> simp only [Option.some.injEq] at h <;> subst h
      · rename_i hlt
        refine ⟨by simp [hd], ?_⟩
        intro b hb
        rcases List.mem_cons.mp hb with rfl | hb
        · omega
        · exact hmin b hb
      · rename_i hge
        refine ⟨by simp, ?_⟩
        intro b hb
        rcases List.mem_cons.mp hb with rfl | hb
        · omega
        · have := hmin b hb
          omega

theorem leastBy_isSome {α : Type} (key : α → Nat) {l : List α} (h : l ≠ []) : ∃ a, leastBy key l = some a := by
  cases hl : leastBy key l with
  | none => exact absurd ((leastBy_eq_none_iff key l).mp hl) h
  | some a => exact ⟨a, rfl⟩

/-! ### Bit depths and the pixel clock -/

@[simp] theorem bppDistance_self (b : Bpp) : bppDistance b b = 0 := by cases b <;> rfl

theorem bppDistance_eq_zero {b b' : Bpp} : bppDistance b b' = 0 ↔ b = b' := by cases b <;> cases b' <;> decide

@[simp] theorem pcsDistance_self (s : BitVec 2) : pcsDistance s s = 0 := by simp [pcsDistance]

theorem pcsDistance_eq_zero {s s' : BitVec 2} : pcsDistance s s' = 0 ↔ s = s' := by
  constructor
  · intro h
    apply BitVec.eq_of_toNat_eq
    simp only [pcsDistance] at h
    omega
  · rintro rfl
    simp

/-- A supported bit depth is used as it is (R68). -/
theorem effectiveBpp_of_mem {c : Config} {ctrl : Word} (h : bppOfCode (ctrlBppCode ctrl) ∈ c.bppSet) :
    effectiveBpp c ctrl = bppOfCode (ctrlBppCode ctrl) := by
  simp [effectiveBpp, h]

/-- The effective bit depth is a supported one (R68). -/
theorem effectiveBpp_mem {c : Config} (h : c.bppSet ≠ []) (ctrl : Word) : effectiveBpp c ctrl ∈ c.bppSet := by
  unfold effectiveBpp
  by_cases hb : bppOfCode (ctrlBppCode ctrl) ∈ c.bppSet
  · simp [hb]
  · obtain ⟨a, ha⟩ := leastBy_isSome
      (fun b' => bppDistance (bppOfCode (ctrlBppCode ctrl)) b' * 4 + (bppLog b').val) h
    simp only [hb, if_false, nearestBpp, ha, Option.getD_some]
    exact (leastBy_spec ha).1

/-- The order of R71 is lexicographic: a smaller key is a smaller distance of the depths, or an equal one and so on. -/
theorem pixClkKey_lt {b : Bpp} {s : BitVec 2} {e f : PixClkEntry} :
    pixClkKey b s e < pixClkKey b s f ↔
      bppDistance b e.bpp < bppDistance b f.bpp ∨ bppDistance b e.bpp = bppDistance b f.bpp ∧
        (pcsDistance s e.pcs < pcsDistance s f.pcs ∨ pcsDistance s e.pcs = pcsDistance s f.pcs ∧
          ((bppLog e.bpp).val < (bppLog f.bpp).val ∨ (bppLog e.bpp).val = (bppLog f.bpp).val ∧
            e.pcs.toNat < f.pcs.toNat)) := by
  have h1 := (bppLog e.bpp).isLt
  have h2 := (bppLog f.bpp).isLt
  have h3 := e.pcs.isLt
  have h4 := f.pcs.isLt
  have h5 : pcsDistance s e.pcs < 4 := by have := s.isLt; unfold pcsDistance; omega
  have h6 : pcsDistance s f.pcs < 4 := by have := s.isLt; unfold pcsDistance; omega
  unfold pixClkKey
  omega

/-- The default pixel clock (R71). -/
theorem pixelClock_default (v : Variant) (b : Bpp) (s : BitVec 2) :
    pixelClock (defaultConfig v) b s = pixClkHz s.toNat := by
  have : ∀ (b : Bpp) (s : BitVec 2), pixelClock (defaultConfig .gen1) b s = pixClkHz s.toNat := by
    intro b
    cases b <;> decide
  exact this b s

/-! ### What the record depends on -/

/-- The cursor slots are not in `Geo()` (R73, R78). -/
theorem geometry_set_cursor (c : Config) (crtc : Crtc) (ctrl x : Word) (k : CrtcSlot)
    (hk : k = .hcsr ∨ k = .hcer ∨ k = .vcsr ∨ k = .vcer) : geometry c (crtc.set k x) ctrl = geometry c crtc ctrl := by
  rcases hk with rfl | rfl | rfl | rfl <;> rfl

/-- `valid` (R74). -/
theorem geometry_valid_iff (c : Config) (crtc : Crtc) (ctrl : Word) :
    (geometry c crtc ctrl).valid = true ↔
      1 ≤ (geometry c crtc ctrl).ht ∧ 1 ≤ (geometry c crtc ctrl).vt ∧ 1 ≤ (geometry c crtc ctrl).fPix := by
  simp [geometry, and_assoc]

/-- A geometry has a line time when it is valid, and then `ht / f_pix` (R76). -/
theorem geometry_tLine (c : Config) (crtc : Crtc) (ctrl : Word) :
    (geometry c crtc ctrl).tLine =
      if (geometry c crtc ctrl).valid then
        some (((geometry c crtc ctrl).ht : Rat) / ((geometry c crtc ctrl).fPix : Rat))
      else none := rfl

theorem geometry_tLine_eq_none_iff (c : Config) (crtc : Crtc) (ctrl : Word) :
    (geometry c crtc ctrl).tLine = none ↔ (geometry c crtc ctrl).valid = false := by
  rw [geometry_tLine]
  cases (geometry c crtc ctrl).valid <;> simp

/-- A scanline of a valid geometry takes time (R76, R123). -/
theorem geometry_tLine_pos {c : Config} {crtc : Crtc} {ctrl : Word} {d : Time}
    (h : (geometry c crtc ctrl).tLine = some d) : 0 < d := by
  rw [geometry_tLine] at h
  cases hv : (geometry c crtc ctrl).valid with
  | false => simp [hv] at h
  | true =>
    obtain ⟨h1, -, h3⟩ := (geometry_valid_iff c crtc ctrl).mp hv
    simp only [hv, if_true, Option.some.injEq] at h
    rw [← h]
    apply div_pos <;> exact_mod_cast (by omega)

/-- The zero registers give an invalid geometry (R29, R145). -/
theorem geometry_zero_invalid (c : Config) (ctrl : Word) : (geometry c Crtc.zero ctrl).valid = false := by
  simp [geometry, Crtc.zero]

end Sys2Proof.Machine
end

