-- ==== Sys2Proof/Laws/Memory.lean ====
section
/-! SUPPORT. The laws of a byte buffer: read after write, the canonical form and the size are kept, and canonical buffers that
read alike are equal. -/

namespace Sys2Proof.Machine

/-- Every listed offset is above `o`. -/
abbrev Memory.above (m : Memory) (o : Nat) : Prop := ∀ c ∈ m, o < c.1

theorem memRead_of_above {m : Memory} {o : Nat} (h : m.above o) : memRead m o = unlistedByte o := by
  induction m with
  | nil => rfl
  | cons c m ih =>
    obtain ⟨a, b⟩ := c
    have ha : o < a := h (a, b) (by simp)
    have hm : Memory.above m o := fun d hd => h d (by simp [hd])
    simp [memRead, show a ≠ o by omega, ih hm]

theorem memRead_cellOf_append (o : Nat) (b : Byte) (m : Memory) (p : Nat) (h : m.above o) :
    memRead (cellOf o b ++ m) p = if p = o then b else memRead m p := by
  unfold cellOf
  by_cases hb : b = unlistedByte o
  · by_cases hp : p = o
    · subst hp; simp [hb, memRead_of_above h]
    · simp [hb, hp]
  · by_cases hp : p = o
    · subst hp; simp [hb, memRead]
    · simp [hb, hp, memRead, Ne.symm hp]

theorem Memory.wf_tail {c : Host.Cell} {m : Memory} (h : Memory.wf (c :: m)) : Memory.wf m :=
  ⟨(List.pairwise_cons.mp h.1).2, fun d hd => h.2 d (by simp [hd])⟩

theorem Memory.wf_above {a : Nat} {b : Byte} {m : Memory} (h : Memory.wf ((a, b) :: m)) : m.above a :=
  fun d hd => (List.pairwise_cons.mp h.1).1 d hd

/-- Reading after a write: the byte written at its offset, and the old byte at every other. -/
theorem memRead_memWrite {m : Memory} (hm : Memory.wf m) (o : Nat) (b : Byte) (p : Nat) :
    memRead (memWrite m o b) p = if p = o then b else memRead m p := by
  induction m with
  | nil => simpa [memWrite] using memRead_cellOf_append o b [] p (by simp)
  | cons c m ih =>
    obtain ⟨a, x⟩ := c
    have hab := Memory.wf_above hm
    unfold memWrite
    split
    · rename_i hlt
      refine memRead_cellOf_append o b _ p ?_
      intro d hd
      rcases List.mem_cons.mp hd with rfl | hd
      · exact hlt
      · exact Nat.lt_trans hlt (hab d hd)
    · split
      · rename_i heq
        subst heq
        rw [memRead_cellOf_append o b m p hab]
        by_cases hp : p = o
        · simp [hp]
        · simp [hp, memRead, Ne.symm hp]
      · simp only [memRead, ih (Memory.wf_tail hm)]
        by_cases hp : a = p
        · have : p ≠ o := by omega
          simp [hp, this]
        · simp [hp]

/-- A listed offset of a written buffer is the written one or one of the old. -/
theorem mem_memWrite {m : Memory} {o : Nat} {b : Byte} {c : Host.Cell} (h : c ∈ memWrite m o b) :
    (c = (o, b) ∧ b ≠ unlistedByte o) ∨ c ∈ m := by
  have cell : ∀ {c : Host.Cell}, c ∈ cellOf o b → c = (o, b) ∧ b ≠ unlistedByte o := by
    intro c hc
    unfold cellOf at hc
    split at hc
    · simp at hc
    · rename_i hb
      exact ⟨by simpa using hc, hb⟩
  induction m with
  | nil => exact Or.inl (cell h)
  | cons d m ih =>
    obtain ⟨a, x⟩ := d
    unfold memWrite at h
    split at h
    · rcases List.mem_append.mp h with h | h
      · exact Or.inl (cell h)
      · exact Or.inr h
    · split at h
      · rcases List.mem_append.mp h with h | h
        · exact Or.inl (cell h)
        · exact Or.inr (by simp [h])
      · rcases List.mem_cons.mp h with h | h
        · exact Or.inr (by simp [h])
        · rcases ih h with h | h
          · exact Or.inl h
          · exact Or.inr (by simp [h])

theorem cellOf_append_wf {m : Memory} (hm : Memory.wf m) (o : Nat) (b : Byte) (h : m.above o) :
    Memory.wf (cellOf o b ++ m) := by
  unfold cellOf
  split
  · simpa using hm
  · rename_i hb
    refine ⟨List.pairwise_cons.mpr ⟨h, hm.1⟩, ?_⟩
    intro c hc
    rcases List.mem_cons.mp hc with rfl | hc
    · exact hb
    · exact hm.2 c hc

/-- A write keeps the canonical form. -/
theorem memWrite_wf {m : Memory} (hm : Memory.wf m) (o : Nat) (b : Byte) : Memory.wf (memWrite m o b) := by
  induction m with
  | nil => simpa [memWrite] using cellOf_append_wf (m := []) ⟨by simp, by simp⟩ o b (by simp)
  | cons c m ih =>
    obtain ⟨a, x⟩ := c
    have hab := Memory.wf_above hm
    unfold memWrite
    split
    · rename_i hlt
      refine cellOf_append_wf hm o b ?_
      intro d hd
      rcases List.mem_cons.mp hd with rfl | hd
      · exact hlt
      · exact Nat.lt_trans hlt (hab d hd)
    · split
      · rename_i heq
        subst heq
        exact cellOf_append_wf (Memory.wf_tail hm) o b hab
      · rename_i hlt hne
        have ih' := ih (Memory.wf_tail hm)
        refine ⟨List.pairwise_cons.mpr ⟨?_, ih'.1⟩, ?_⟩
        · intro d hd
          rcases mem_memWrite hd with ⟨rfl, -⟩ | hd
          · show a < o
            omega
          · exact hab d hd
        · intro d hd
          rcases List.mem_cons.mp hd with rfl | hd
          · exact hm.2 (a, x) (by simp)
          · exact ih'.2 d hd

/-- A write inside a buffer's size keeps the listed offsets inside it. -/
theorem memWrite_within {m : Memory} {bits : Nat} (hm : m.within bits) {o : Nat} (ho : o < 2 ^ bits) (b : Byte) :
    (memWrite m o b).within bits := by
  intro c hc
  rcases mem_memWrite hc with ⟨rfl, -⟩ | hc
  · exact ho
  · exact hm c hc

/-- Canonical buffers that read alike are the same list. -/
theorem memory_ext {m n : Memory} (hm : Memory.wf m) (hn : Memory.wf n) (h : ∀ o, memRead m o = memRead n o) : m = n := by
  induction m generalizing n with
  | nil =>
    cases n with
    | nil => rfl
    | cons d n =>
      obtain ⟨a, x⟩ := d
      have := h a
      simp only [memRead, if_true] at this
      exact absurd this.symm (hn.2 (a, x) (by simp))
  | cons c m ih =>
    obtain ⟨a, x⟩ := c
    cases n with
    | nil =>
      have := h a
      simp only [memRead, if_true] at this
      exact absurd this (hm.2 (a, x) (by simp))
    | cons d n =>
      obtain ⟨e, y⟩ := d
      have ham := Memory.wf_above hm
      have hen := Memory.wf_above hn
      have hae : a = e := by
        rcases Nat.lt_trichotomy a e with hlt | heq | hgt
        · have h1 := h a
          have : Memory.above ((e, y) :: n) a := by
            intro d hd
            rcases List.mem_cons.mp hd with rfl | hd
            · exact hlt
            · exact Nat.lt_trans hlt (hen d hd)
          rw [memRead_of_above this] at h1
          simp only [memRead, if_true] at h1
          exact absurd h1 (hm.2 (a, x) (by simp))
        · exact heq
        · have h1 := h e
          have : Memory.above ((a, x) :: m) e := by
            intro d hd
            rcases List.mem_cons.mp hd with rfl | hd
            · exact hgt
            · exact Nat.lt_trans hgt (ham d hd)
          rw [memRead_of_above this] at h1
          simp only [memRead, if_true] at h1
          exact absurd h1.symm (hn.2 (e, y) (by simp))
      subst hae
      have hxy : x = y := by simpa [memRead] using h a
      subst hxy
      have : m = n := by
        apply ih (Memory.wf_tail hm) (Memory.wf_tail hn)
        intro o
        by_cases ho : a = o
        · subst ho
          rw [memRead_of_above ham, memRead_of_above hen]
        · simpa [memRead, ho] using h o
      rw [this]

/-- Reading a buffer after a write, at any offset: offsets count modulo the buffer's size (R41). -/
theorem bufRead_bufWrite {m : Memory} (hm : Memory.wf m) (bits o p : Nat) (b : Byte) :
    bufRead (bufWrite m bits o b) bits p = if p % 2 ^ bits = o % 2 ^ bits then b else bufRead m bits p := by
  unfold bufRead bufWrite
  rw [memRead_memWrite hm]

/-- A buffer write keeps the canonical form and the size. -/
theorem bufWrite_wf {m : Memory} (hm : Memory.wf m) (bits o : Nat) (b : Byte) : Memory.wf (bufWrite m bits o b) :=
  memWrite_wf hm _ _

theorem bufWrite_within {m : Memory} {bits : Nat} (hm : m.within bits) (o : Nat) (b : Byte) :
    (bufWrite m bits o b).within bits :=
  memWrite_within hm (Nat.mod_lt _ (Nat.two_pow_pos bits)) b

end Sys2Proof.Machine
end

