-- ==== Sys2Proof/Laws/State.lean ====
section
/-! SUPPORT. One lemma per field per update of the state, each true by `rfl`, so that no later proof unfolds a record update. -/

namespace Sys2Proof.Machine

/-! ### `State.setCrtc` -/

section

variable (s : State) (k : CrtcSlot) (x : Word)

@[simp] theorem setCrtc_crtc : (s.setCrtc k x).crtc = s.crtc.set k x := rfl
@[simp] theorem setCrtc_ctrl : (s.setCrtc k x).ctrl = s.ctrl := rfl
@[simp] theorem setCrtc_sfr : (s.setCrtc k x).sfr = s.sfr := rfl
@[simp] theorem setCrtc_palidx : (s.setCrtc k x).palidx = s.palidx := rfl
@[simp] theorem setCrtc_pal : (s.setCrtc k x).pal = s.pal := rfl
@[simp] theorem setCrtc_vram : (s.setCrtc k x).vram = s.vram := rfl
@[simp] theorem setCrtc_cram : (s.setCrtc k x).cram = s.cram := rfl
@[simp] theorem setCrtc_dac : (s.setCrtc k x).dac = s.dac := rfl
@[simp] theorem setCrtc_geo : (s.setCrtc k x).geo = s.geo := rfl
@[simp] theorem setCrtc_vline : (s.setCrtc k x).vline = s.vline := rfl
@[simp] theorem setCrtc_flyback : (s.setCrtc k x).flyback = s.flyback := rfl
@[simp] theorem setCrtc_dueVideo : (s.setCrtc k x).dueVideo = s.dueVideo := rfl
@[simp] theorem setCrtc_dueSound : (s.setCrtc k x).dueSound = s.dueSound := rfl
@[simp] theorem setCrtc_now : (s.setCrtc k x).now = s.now := rfl
@[simp] theorem setCrtc_history : (s.setCrtc k x).history = s.history := rfl
@[simp] theorem setCrtc_cfg : (s.setCrtc k x).cfg = s.cfg := rfl
@[simp] theorem setCrtc_program : (s.setCrtc k x).program = s.program := rfl
@[simp] theorem setCrtc_replies : (s.setCrtc k x).replies = s.replies := rfl
@[simp] theorem setCrtc_ties : (s.setCrtc k x).ties = s.ties := rfl

end

/-! ### `State.setCtrl` -/

section

variable (s : State) (x : Word)

@[simp] theorem setCtrl_crtc : (s.setCtrl x).crtc = s.crtc := rfl
@[simp] theorem setCtrl_ctrl : (s.setCtrl x).ctrl = x := rfl
@[simp] theorem setCtrl_sfr : (s.setCtrl x).sfr = s.sfr := rfl
@[simp] theorem setCtrl_palidx : (s.setCtrl x).palidx = s.palidx := rfl
@[simp] theorem setCtrl_pal : (s.setCtrl x).pal = s.pal := rfl
@[simp] theorem setCtrl_vram : (s.setCtrl x).vram = s.vram := rfl
@[simp] theorem setCtrl_cram : (s.setCtrl x).cram = s.cram := rfl
@[simp] theorem setCtrl_dac : (s.setCtrl x).dac = s.dac := rfl
@[simp] theorem setCtrl_geo : (s.setCtrl x).geo = s.geo := rfl
@[simp] theorem setCtrl_vline : (s.setCtrl x).vline = s.vline := rfl
@[simp] theorem setCtrl_flyback : (s.setCtrl x).flyback = s.flyback := rfl
@[simp] theorem setCtrl_dueVideo : (s.setCtrl x).dueVideo = s.dueVideo := rfl
@[simp] theorem setCtrl_dueSound : (s.setCtrl x).dueSound = s.dueSound := rfl
@[simp] theorem setCtrl_now : (s.setCtrl x).now = s.now := rfl
@[simp] theorem setCtrl_history : (s.setCtrl x).history = s.history := rfl
@[simp] theorem setCtrl_cfg : (s.setCtrl x).cfg = s.cfg := rfl
@[simp] theorem setCtrl_program : (s.setCtrl x).program = s.program := rfl
@[simp] theorem setCtrl_replies : (s.setCtrl x).replies = s.replies := rfl
@[simp] theorem setCtrl_ties : (s.setCtrl x).ties = s.ties := rfl

end

/-! ### `State.setSfr` -/

section

variable (s : State) (x : Byte)

@[simp] theorem setSfr_crtc : (s.setSfr x).crtc = s.crtc := rfl
@[simp] theorem setSfr_ctrl : (s.setSfr x).ctrl = s.ctrl := rfl
@[simp] theorem setSfr_sfr : (s.setSfr x).sfr = x := rfl
@[simp] theorem setSfr_palidx : (s.setSfr x).palidx = s.palidx := rfl
@[simp] theorem setSfr_pal : (s.setSfr x).pal = s.pal := rfl
@[simp] theorem setSfr_vram : (s.setSfr x).vram = s.vram := rfl
@[simp] theorem setSfr_cram : (s.setSfr x).cram = s.cram := rfl
@[simp] theorem setSfr_dac : (s.setSfr x).dac = s.dac := rfl
@[simp] theorem setSfr_geo : (s.setSfr x).geo = s.geo := rfl
@[simp] theorem setSfr_vline : (s.setSfr x).vline = s.vline := rfl
@[simp] theorem setSfr_flyback : (s.setSfr x).flyback = s.flyback := rfl
@[simp] theorem setSfr_dueVideo : (s.setSfr x).dueVideo = s.dueVideo := rfl
@[simp] theorem setSfr_dueSound : (s.setSfr x).dueSound = s.dueSound := rfl
@[simp] theorem setSfr_now : (s.setSfr x).now = s.now := rfl
@[simp] theorem setSfr_history : (s.setSfr x).history = s.history := rfl
@[simp] theorem setSfr_cfg : (s.setSfr x).cfg = s.cfg := rfl
@[simp] theorem setSfr_program : (s.setSfr x).program = s.program := rfl
@[simp] theorem setSfr_replies : (s.setSfr x).replies = s.replies := rfl
@[simp] theorem setSfr_ties : (s.setSfr x).ties = s.ties := rfl

end

/-! ### `State.setPalidx` -/

section

variable (s : State) (x : Byte)

@[simp] theorem setPalidx_crtc : (s.setPalidx x).crtc = s.crtc := rfl
@[simp] theorem setPalidx_ctrl : (s.setPalidx x).ctrl = s.ctrl := rfl
@[simp] theorem setPalidx_sfr : (s.setPalidx x).sfr = s.sfr := rfl
@[simp] theorem setPalidx_palidx : (s.setPalidx x).palidx = x := rfl
@[simp] theorem setPalidx_pal : (s.setPalidx x).pal = s.pal := rfl
@[simp] theorem setPalidx_vram : (s.setPalidx x).vram = s.vram := rfl
@[simp] theorem setPalidx_cram : (s.setPalidx x).cram = s.cram := rfl
@[simp] theorem setPalidx_dac : (s.setPalidx x).dac = s.dac := rfl
@[simp] theorem setPalidx_geo : (s.setPalidx x).geo = s.geo := rfl
@[simp] theorem setPalidx_vline : (s.setPalidx x).vline = s.vline := rfl
@[simp] theorem setPalidx_flyback : (s.setPalidx x).flyback = s.flyback := rfl
@[simp] theorem setPalidx_dueVideo : (s.setPalidx x).dueVideo = s.dueVideo := rfl
@[simp] theorem setPalidx_dueSound : (s.setPalidx x).dueSound = s.dueSound := rfl
@[simp] theorem setPalidx_now : (s.setPalidx x).now = s.now := rfl
@[simp] theorem setPalidx_history : (s.setPalidx x).history = s.history := rfl
@[simp] theorem setPalidx_cfg : (s.setPalidx x).cfg = s.cfg := rfl
@[simp] theorem setPalidx_program : (s.setPalidx x).program = s.program := rfl
@[simp] theorem setPalidx_replies : (s.setPalidx x).replies = s.replies := rfl
@[simp] theorem setPalidx_ties : (s.setPalidx x).ties = s.ties := rfl

end

/-! ### `State.setPal` -/

section

variable (s : State) (i : Nat) (c : Rgb)

@[simp] theorem setPal_crtc : (s.setPal i c).crtc = s.crtc := rfl
@[simp] theorem setPal_ctrl : (s.setPal i c).ctrl = s.ctrl := rfl
@[simp] theorem setPal_sfr : (s.setPal i c).sfr = s.sfr := rfl
@[simp] theorem setPal_palidx : (s.setPal i c).palidx = s.palidx := rfl
@[simp] theorem setPal_pal : (s.setPal i c).pal = s.pal.set i c := rfl
@[simp] theorem setPal_vram : (s.setPal i c).vram = s.vram := rfl
@[simp] theorem setPal_cram : (s.setPal i c).cram = s.cram := rfl
@[simp] theorem setPal_dac : (s.setPal i c).dac = s.dac := rfl
@[simp] theorem setPal_geo : (s.setPal i c).geo = s.geo := rfl
@[simp] theorem setPal_vline : (s.setPal i c).vline = s.vline := rfl
@[simp] theorem setPal_flyback : (s.setPal i c).flyback = s.flyback := rfl
@[simp] theorem setPal_dueVideo : (s.setPal i c).dueVideo = s.dueVideo := rfl
@[simp] theorem setPal_dueSound : (s.setPal i c).dueSound = s.dueSound := rfl
@[simp] theorem setPal_now : (s.setPal i c).now = s.now := rfl
@[simp] theorem setPal_history : (s.setPal i c).history = s.history := rfl
@[simp] theorem setPal_cfg : (s.setPal i c).cfg = s.cfg := rfl
@[simp] theorem setPal_program : (s.setPal i c).program = s.program := rfl
@[simp] theorem setPal_replies : (s.setPal i c).replies = s.replies := rfl
@[simp] theorem setPal_ties : (s.setPal i c).ties = s.ties := rfl

end

/-! ### `State.vramWrite` -/

section

variable (s : State) (o : Nat) (b : Byte)

@[simp] theorem vramWrite_crtc : (s.vramWrite o b).crtc = s.crtc := rfl
@[simp] theorem vramWrite_ctrl : (s.vramWrite o b).ctrl = s.ctrl := rfl
@[simp] theorem vramWrite_sfr : (s.vramWrite o b).sfr = s.sfr := rfl
@[simp] theorem vramWrite_palidx : (s.vramWrite o b).palidx = s.palidx := rfl
@[simp] theorem vramWrite_pal : (s.vramWrite o b).pal = s.pal := rfl
@[simp] theorem vramWrite_vram : (s.vramWrite o b).vram = bufWrite s.vram s.cfg.vramBits o b := rfl
@[simp] theorem vramWrite_cram : (s.vramWrite o b).cram = s.cram := rfl
@[simp] theorem vramWrite_dac : (s.vramWrite o b).dac = s.dac := rfl
@[simp] theorem vramWrite_geo : (s.vramWrite o b).geo = s.geo := rfl
@[simp] theorem vramWrite_vline : (s.vramWrite o b).vline = s.vline := rfl
@[simp] theorem vramWrite_flyback : (s.vramWrite o b).flyback = s.flyback := rfl
@[simp] theorem vramWrite_dueVideo : (s.vramWrite o b).dueVideo = s.dueVideo := rfl
@[simp] theorem vramWrite_dueSound : (s.vramWrite o b).dueSound = s.dueSound := rfl
@[simp] theorem vramWrite_now : (s.vramWrite o b).now = s.now := rfl
@[simp] theorem vramWrite_history : (s.vramWrite o b).history = s.history := rfl
@[simp] theorem vramWrite_cfg : (s.vramWrite o b).cfg = s.cfg := rfl
@[simp] theorem vramWrite_program : (s.vramWrite o b).program = s.program := rfl
@[simp] theorem vramWrite_replies : (s.vramWrite o b).replies = s.replies := rfl
@[simp] theorem vramWrite_ties : (s.vramWrite o b).ties = s.ties := rfl

end

/-! ### `State.cramWrite` -/

section

variable (s : State) (o : Nat) (b : Byte)

@[simp] theorem cramWrite_crtc : (s.cramWrite o b).crtc = s.crtc := rfl
@[simp] theorem cramWrite_ctrl : (s.cramWrite o b).ctrl = s.ctrl := rfl
@[simp] theorem cramWrite_sfr : (s.cramWrite o b).sfr = s.sfr := rfl
@[simp] theorem cramWrite_palidx : (s.cramWrite o b).palidx = s.palidx := rfl
@[simp] theorem cramWrite_pal : (s.cramWrite o b).pal = s.pal := rfl
@[simp] theorem cramWrite_vram : (s.cramWrite o b).vram = s.vram := rfl
@[simp] theorem cramWrite_cram : (s.cramWrite o b).cram = bufWrite s.cram s.cfg.cramBits o b := rfl
@[simp] theorem cramWrite_dac : (s.cramWrite o b).dac = s.dac := rfl
@[simp] theorem cramWrite_geo : (s.cramWrite o b).geo = s.geo := rfl
@[simp] theorem cramWrite_vline : (s.cramWrite o b).vline = s.vline := rfl
@[simp] theorem cramWrite_flyback : (s.cramWrite o b).flyback = s.flyback := rfl
@[simp] theorem cramWrite_dueVideo : (s.cramWrite o b).dueVideo = s.dueVideo := rfl
@[simp] theorem cramWrite_dueSound : (s.cramWrite o b).dueSound = s.dueSound := rfl
@[simp] theorem cramWrite_now : (s.cramWrite o b).now = s.now := rfl
@[simp] theorem cramWrite_history : (s.cramWrite o b).history = s.history := rfl
@[simp] theorem cramWrite_cfg : (s.cramWrite o b).cfg = s.cfg := rfl
@[simp] theorem cramWrite_program : (s.cramWrite o b).program = s.program := rfl
@[simp] theorem cramWrite_replies : (s.cramWrite o b).replies = s.replies := rfl
@[simp] theorem cramWrite_ties : (s.cramWrite o b).ties = s.ties := rfl

end

/-! ### `State.setDac` -/

section

variable (s : State) (c : BitVec 3) (d : DacChannel)

@[simp] theorem setDac_crtc : (s.setDac c d).crtc = s.crtc := rfl
@[simp] theorem setDac_ctrl : (s.setDac c d).ctrl = s.ctrl := rfl
@[simp] theorem setDac_sfr : (s.setDac c d).sfr = s.sfr := rfl
@[simp] theorem setDac_palidx : (s.setDac c d).palidx = s.palidx := rfl
@[simp] theorem setDac_pal : (s.setDac c d).pal = s.pal := rfl
@[simp] theorem setDac_vram : (s.setDac c d).vram = s.vram := rfl
@[simp] theorem setDac_cram : (s.setDac c d).cram = s.cram := rfl
@[simp] theorem setDac_dac : (s.setDac c d).dac = s.dac.set c.toNat d c.isLt := rfl
@[simp] theorem setDac_geo : (s.setDac c d).geo = s.geo := rfl
@[simp] theorem setDac_vline : (s.setDac c d).vline = s.vline := rfl
@[simp] theorem setDac_flyback : (s.setDac c d).flyback = s.flyback := rfl
@[simp] theorem setDac_dueVideo : (s.setDac c d).dueVideo = s.dueVideo := rfl
@[simp] theorem setDac_dueSound : (s.setDac c d).dueSound = s.dueSound := rfl
@[simp] theorem setDac_now : (s.setDac c d).now = s.now := rfl
@[simp] theorem setDac_history : (s.setDac c d).history = s.history := rfl
@[simp] theorem setDac_cfg : (s.setDac c d).cfg = s.cfg := rfl
@[simp] theorem setDac_program : (s.setDac c d).program = s.program := rfl
@[simp] theorem setDac_replies : (s.setDac c d).replies = s.replies := rfl
@[simp] theorem setDac_ties : (s.setDac c d).ties = s.ties := rfl

end

/-! ### `State.setGeo` -/

section

variable (s : State) (g : Geo)

@[simp] theorem setGeo_crtc : (s.setGeo g).crtc = s.crtc := rfl
@[simp] theorem setGeo_ctrl : (s.setGeo g).ctrl = s.ctrl := rfl
@[simp] theorem setGeo_sfr : (s.setGeo g).sfr = s.sfr := rfl
@[simp] theorem setGeo_palidx : (s.setGeo g).palidx = s.palidx := rfl
@[simp] theorem setGeo_pal : (s.setGeo g).pal = s.pal := rfl
@[simp] theorem setGeo_vram : (s.setGeo g).vram = s.vram := rfl
@[simp] theorem setGeo_cram : (s.setGeo g).cram = s.cram := rfl
@[simp] theorem setGeo_dac : (s.setGeo g).dac = s.dac := rfl
@[simp] theorem setGeo_geo : (s.setGeo g).geo = g := rfl
@[simp] theorem setGeo_vline : (s.setGeo g).vline = s.vline := rfl
@[simp] theorem setGeo_flyback : (s.setGeo g).flyback = s.flyback := rfl
@[simp] theorem setGeo_dueVideo : (s.setGeo g).dueVideo = s.dueVideo := rfl
@[simp] theorem setGeo_dueSound : (s.setGeo g).dueSound = s.dueSound := rfl
@[simp] theorem setGeo_now : (s.setGeo g).now = s.now := rfl
@[simp] theorem setGeo_history : (s.setGeo g).history = s.history := rfl
@[simp] theorem setGeo_cfg : (s.setGeo g).cfg = s.cfg := rfl
@[simp] theorem setGeo_program : (s.setGeo g).program = s.program := rfl
@[simp] theorem setGeo_replies : (s.setGeo g).replies = s.replies := rfl
@[simp] theorem setGeo_ties : (s.setGeo g).ties = s.ties := rfl

end

/-! ### `State.setVline` -/

section

variable (s : State) (n : Nat)

@[simp] theorem setVline_crtc : (s.setVline n).crtc = s.crtc := rfl
@[simp] theorem setVline_ctrl : (s.setVline n).ctrl = s.ctrl := rfl
@[simp] theorem setVline_sfr : (s.setVline n).sfr = s.sfr := rfl
@[simp] theorem setVline_palidx : (s.setVline n).palidx = s.palidx := rfl
@[simp] theorem setVline_pal : (s.setVline n).pal = s.pal := rfl
@[simp] theorem setVline_vram : (s.setVline n).vram = s.vram := rfl
@[simp] theorem setVline_cram : (s.setVline n).cram = s.cram := rfl
@[simp] theorem setVline_dac : (s.setVline n).dac = s.dac := rfl
@[simp] theorem setVline_geo : (s.setVline n).geo = s.geo := rfl
@[simp] theorem setVline_vline : (s.setVline n).vline = n := rfl
@[simp] theorem setVline_flyback : (s.setVline n).flyback = s.flyback := rfl
@[simp] theorem setVline_dueVideo : (s.setVline n).dueVideo = s.dueVideo := rfl
@[simp] theorem setVline_dueSound : (s.setVline n).dueSound = s.dueSound := rfl
@[simp] theorem setVline_now : (s.setVline n).now = s.now := rfl
@[simp] theorem setVline_history : (s.setVline n).history = s.history := rfl
@[simp] theorem setVline_cfg : (s.setVline n).cfg = s.cfg := rfl
@[simp] theorem setVline_program : (s.setVline n).program = s.program := rfl
@[simp] theorem setVline_replies : (s.setVline n).replies = s.replies := rfl
@[simp] theorem setVline_ties : (s.setVline n).ties = s.ties := rfl

end

/-! ### `State.setFlyback` -/

section

variable (s : State) (b : Bool)

@[simp] theorem setFlyback_crtc : (s.setFlyback b).crtc = s.crtc := rfl
@[simp] theorem setFlyback_ctrl : (s.setFlyback b).ctrl = s.ctrl := rfl
@[simp] theorem setFlyback_sfr : (s.setFlyback b).sfr = s.sfr := rfl
@[simp] theorem setFlyback_palidx : (s.setFlyback b).palidx = s.palidx := rfl
@[simp] theorem setFlyback_pal : (s.setFlyback b).pal = s.pal := rfl
@[simp] theorem setFlyback_vram : (s.setFlyback b).vram = s.vram := rfl
@[simp] theorem setFlyback_cram : (s.setFlyback b).cram = s.cram := rfl
@[simp] theorem setFlyback_dac : (s.setFlyback b).dac = s.dac := rfl
@[simp] theorem setFlyback_geo : (s.setFlyback b).geo = s.geo := rfl
@[simp] theorem setFlyback_vline : (s.setFlyback b).vline = s.vline := rfl
@[simp] theorem setFlyback_flyback : (s.setFlyback b).flyback = b := rfl
@[simp] theorem setFlyback_dueVideo : (s.setFlyback b).dueVideo = s.dueVideo := rfl
@[simp] theorem setFlyback_dueSound : (s.setFlyback b).dueSound = s.dueSound := rfl
@[simp] theorem setFlyback_now : (s.setFlyback b).now = s.now := rfl
@[simp] theorem setFlyback_history : (s.setFlyback b).history = s.history := rfl
@[simp] theorem setFlyback_cfg : (s.setFlyback b).cfg = s.cfg := rfl
@[simp] theorem setFlyback_program : (s.setFlyback b).program = s.program := rfl
@[simp] theorem setFlyback_replies : (s.setFlyback b).replies = s.replies := rfl
@[simp] theorem setFlyback_ties : (s.setFlyback b).ties = s.ties := rfl

end

/-! ### `State.emit` -/

section

variable (s : State) (e : Event)

@[simp] theorem emit_crtc : (s.emit e).crtc = s.crtc := rfl
@[simp] theorem emit_ctrl : (s.emit e).ctrl = s.ctrl := rfl
@[simp] theorem emit_sfr : (s.emit e).sfr = s.sfr := rfl
@[simp] theorem emit_palidx : (s.emit e).palidx = s.palidx := rfl
@[simp] theorem emit_pal : (s.emit e).pal = s.pal := rfl
@[simp] theorem emit_vram : (s.emit e).vram = s.vram := rfl
@[simp] theorem emit_cram : (s.emit e).cram = s.cram := rfl
@[simp] theorem emit_dac : (s.emit e).dac = s.dac := rfl
@[simp] theorem emit_geo : (s.emit e).geo = s.geo := rfl
@[simp] theorem emit_vline : (s.emit e).vline = s.vline := rfl
@[simp] theorem emit_flyback : (s.emit e).flyback = s.flyback := rfl
@[simp] theorem emit_dueVideo : (s.emit e).dueVideo = s.dueVideo := rfl
@[simp] theorem emit_dueSound : (s.emit e).dueSound = s.dueSound := rfl
@[simp] theorem emit_now : (s.emit e).now = s.now := rfl
@[simp] theorem emit_history : (s.emit e).history = s.history ++ [(s.now, e)] := rfl
@[simp] theorem emit_cfg : (s.emit e).cfg = s.cfg := rfl
@[simp] theorem emit_program : (s.emit e).program = s.program := rfl
@[simp] theorem emit_replies : (s.emit e).replies = s.replies := rfl
@[simp] theorem emit_ties : (s.emit e).ties = s.ties := rfl

end

/-! ### `State.answer` -/

section

variable (s : State) (r : Reply)

@[simp] theorem answer_crtc : (s.answer r).crtc = s.crtc := rfl
@[simp] theorem answer_ctrl : (s.answer r).ctrl = s.ctrl := rfl
@[simp] theorem answer_sfr : (s.answer r).sfr = s.sfr := rfl
@[simp] theorem answer_palidx : (s.answer r).palidx = s.palidx := rfl
@[simp] theorem answer_pal : (s.answer r).pal = s.pal := rfl
@[simp] theorem answer_vram : (s.answer r).vram = s.vram := rfl
@[simp] theorem answer_cram : (s.answer r).cram = s.cram := rfl
@[simp] theorem answer_dac : (s.answer r).dac = s.dac := rfl
@[simp] theorem answer_geo : (s.answer r).geo = s.geo := rfl
@[simp] theorem answer_vline : (s.answer r).vline = s.vline := rfl
@[simp] theorem answer_flyback : (s.answer r).flyback = s.flyback := rfl
@[simp] theorem answer_dueVideo : (s.answer r).dueVideo = s.dueVideo := rfl
@[simp] theorem answer_dueSound : (s.answer r).dueSound = s.dueSound := rfl
@[simp] theorem answer_now : (s.answer r).now = s.now := rfl
@[simp] theorem answer_history : (s.answer r).history = s.history := rfl
@[simp] theorem answer_cfg : (s.answer r).cfg = s.cfg := rfl
@[simp] theorem answer_program : (s.answer r).program = s.program := rfl
@[simp] theorem answer_replies : (s.answer r).replies = s.replies ++ [r] := rfl
@[simp] theorem answer_ties : (s.answer r).ties = s.ties := rfl

end

/-! ### `State.prepare` -/

section

variable (s : State) (l : Label)

@[simp] theorem prepare_crtc : (s.prepare l).crtc = s.crtc := rfl
@[simp] theorem prepare_ctrl : (s.prepare l).ctrl = s.ctrl := rfl
@[simp] theorem prepare_sfr : (s.prepare l).sfr = s.sfr := rfl
@[simp] theorem prepare_palidx : (s.prepare l).palidx = s.palidx := rfl
@[simp] theorem prepare_pal : (s.prepare l).pal = s.pal := rfl
@[simp] theorem prepare_vram : (s.prepare l).vram = s.vram := rfl
@[simp] theorem prepare_cram : (s.prepare l).cram = s.cram := rfl
@[simp] theorem prepare_dac : (s.prepare l).dac = s.dac := rfl
@[simp] theorem prepare_geo : (s.prepare l).geo = s.geo := rfl
@[simp] theorem prepare_vline : (s.prepare l).vline = s.vline := rfl
@[simp] theorem prepare_flyback : (s.prepare l).flyback = s.flyback := rfl
@[simp] theorem prepare_dueVideo : (s.prepare l).dueVideo = s.dueVideo := rfl
@[simp] theorem prepare_dueSound : (s.prepare l).dueSound = s.dueSound := rfl
@[simp] theorem prepare_now : (s.prepare l).now = s.labelTime l := rfl
@[simp] theorem prepare_history : (s.prepare l).history = s.history := rfl
@[simp] theorem prepare_cfg : (s.prepare l).cfg = s.cfg := rfl
@[simp] theorem prepare_program : (s.prepare l).program = s.programAfter l := rfl
@[simp] theorem prepare_replies : (s.prepare l).replies = s.replies := rfl
@[simp] theorem prepare_ties : (s.prepare l).ties = tiesAfter s.ties s.candidates := rfl

end

/-! ### `State.arm` -/

section

variable (s : State) (k : TimerKind) (t : Option Time)

@[simp] theorem arm_crtc : (s.arm k t).crtc = s.crtc := by cases k <;> rfl
@[simp] theorem arm_ctrl : (s.arm k t).ctrl = s.ctrl := by cases k <;> rfl
@[simp] theorem arm_sfr : (s.arm k t).sfr = s.sfr := by cases k <;> rfl
@[simp] theorem arm_palidx : (s.arm k t).palidx = s.palidx := by cases k <;> rfl
@[simp] theorem arm_pal : (s.arm k t).pal = s.pal := by cases k <;> rfl
@[simp] theorem arm_vram : (s.arm k t).vram = s.vram := by cases k <;> rfl
@[simp] theorem arm_cram : (s.arm k t).cram = s.cram := by cases k <;> rfl
@[simp] theorem arm_dac : (s.arm k t).dac = s.dac := by cases k <;> rfl
@[simp] theorem arm_geo : (s.arm k t).geo = s.geo := by cases k <;> rfl
@[simp] theorem arm_vline : (s.arm k t).vline = s.vline := by cases k <;> rfl
@[simp] theorem arm_flyback : (s.arm k t).flyback = s.flyback := by cases k <;> rfl
@[simp] theorem arm_video_dueVideo : (s.arm .video t).dueVideo = t := rfl
@[simp] theorem arm_sound_dueVideo : (s.arm .sound t).dueVideo = s.dueVideo := rfl
@[simp] theorem arm_sound_dueSound : (s.arm .sound t).dueSound = t := rfl
@[simp] theorem arm_video_dueSound : (s.arm .video t).dueSound = s.dueSound := rfl
@[simp] theorem arm_now : (s.arm k t).now = s.now := by cases k <;> rfl
@[simp] theorem arm_history : (s.arm k t).history = s.history := by cases k <;> rfl
@[simp] theorem arm_cfg : (s.arm k t).cfg = s.cfg := by cases k <;> rfl
@[simp] theorem arm_program : (s.arm k t).program = s.program := by cases k <;> rfl
@[simp] theorem arm_replies : (s.arm k t).replies = s.replies := by cases k <;> rfl
@[simp] theorem arm_ties : (s.arm k t).ties = s.ties := by cases k <;> rfl

/-- `arm` sets the timer it names and no other (R123). -/
theorem arm_due (j : TimerKind) : (s.arm k t).due j = if j = k then t else s.due j := by
  cases k <;> cases j <;> rfl

end

/-! ### CRTC slots -/

@[simp] theorem crtc_get_zero (k : CrtcSlot) : Crtc.zero.get k = 0 := by cases k <;> rfl

/-- A slot write changes that slot and no other (R21). -/
theorem crtc_get_set (c : Crtc) (k j : CrtcSlot) (x : Word) : (c.set k x).get j = if j = k then x else c.get j := by
  cases k <;> cases j <;> rfl

@[simp] theorem crtc_get_set_same (c : Crtc) (k : CrtcSlot) (x : Word) : (c.set k x).get k = x := by
  simp [crtc_get_set]

/-- Slots are told apart by their values: two records with equal slots are equal. -/
theorem crtc_ext {c d : Crtc} (h : ∀ k, c.get k = d.get k) : c = d := by
  obtain ⟨_, _, _, _, _, _, _, _, _, _, _, _, _, _, _, _⟩ := c
  obtain ⟨_, _, _, _, _, _, _, _, _, _, _, _, _, _, _, _⟩ := d
  have h0 := h .hcr; have h1 := h .hswr; have h2 := h .hbsr; have h3 := h .hber
  have h4 := h .hdsr; have h5 := h .hder; have h6 := h .hcsr; have h7 := h .hcer
  have h8 := h .vcr; have h9 := h .vswr; have h10 := h .vbsr; have h11 := h .vber
  have h12 := h .vdsr; have h13 := h .vder; have h14 := h .vcsr; have h15 := h .vcer
  simp only [Crtc.get] at *
  simp [*]

/-- Writing a slot twice keeps the last value. -/
@[simp] theorem crtc_set_set (c : Crtc) (k : CrtcSlot) (x y : Word) : (c.set k x).set k y = c.set k y := by
  cases k <;> rfl

/-! ### DAC channels -/

/-- A channel write changes that channel and no other (R28). -/
theorem dacRead_setDac (s : State) (c j : BitVec 3) (d : DacChannel) :
    (s.setDac c d).dacRead j = if j = c then d else s.dacRead j := by
  simp only [State.dacRead, setDac_dac]
  rw [Vector.getElem_set]
  by_cases h : j = c
  · simp [h]
  · have : c.toNat ≠ j.toNat := fun e => h (BitVec.eq_of_toNat_eq e.symm)
    simp [h, this]

@[simp] theorem dacRead_setDac_same (s : State) (c : BitVec 3) (d : DacChannel) : (s.setDac c d).dacRead c = d := by
  simp [dacRead_setDac]

/-- A record whose channels are all those of another is that other. -/
theorem dac_ext {s t : State} (h : ∀ c, s.dacRead c = t.dacRead c) : s.dac = t.dac := by
  apply Vector.ext
  intro i hi
  have := h (BitVec.ofNat 3 i)
  simpa [State.dacRead, Nat.mod_eq_of_lt hi] using this

/-! ### The palette -/

@[simp] theorem setPal_palRead_same (s : State) (i : Nat) (c : Rgb) (h : i < s.pal.length) :
    (s.setPal i c).palRead i = c := by
  simp [State.palRead, List.getD, h]

@[simp] theorem setPal_palRead_ne (s : State) (i j : Nat) (c : Rgb) (h : i ≠ j) :
    (s.setPal i c).palRead j = s.palRead j := by
  simp [State.palRead, List.getD, List.getElem?_set_ne h]

end Sys2Proof.Machine
end

