-- ==== Sys2Proof/Laws/Ops.lean ====
section
/-! SUPPORT. One lemma per shared operation that says everything it can do, cited instead of unfolding it. -/

namespace Sys2Proof.Machine

/-! ### `geo_update` (R78) -/

/-- Everything `geo_update` can do: nothing when the geometry is the cached one, else the change procedure of R78. -/
theorem geoUpdate_cases (s : State) :
    (geometry s.cfg s.crtc s.ctrl = s.geo ∧ s.geoUpdate = s) ∨
      (geometry s.cfg s.crtc s.ctrl ≠ s.geo ∧
        s.geoUpdate =
          { s with
            geo := geometry s.cfg s.crtc s.ctrl
            history := s.history ++ [(s.now, .resChange (geometry s.cfg s.crtc s.ctrl))]
            vline := if (geometry s.cfg s.crtc s.ctrl).valid then s.vline % (geometry s.cfg s.crtc s.ctrl).vt else 0
            dueVideo := (geometry s.cfg s.crtc s.ctrl).tLine.map (s.now + ·) }) := by
  by_cases h : geometry s.cfg s.crtc s.ctrl = s.geo
  · exact Or.inl ⟨h, by simp [State.geoUpdate, h]⟩
  · exact Or.inr ⟨h, by simp only [State.geoUpdate, h, if_false]; rfl⟩

/-- `geo_update` leaves the cached geometry exact (R29, R49). -/
@[simp] theorem geoUpdate_geo (s : State) : s.geoUpdate.geo = geometry s.cfg s.crtc s.ctrl := by
  rcases geoUpdate_cases s with ⟨h, e⟩ | ⟨-, e⟩ <;> rw [e]
  exact h.symm

@[simp] theorem geoUpdate_crtc (s : State) : s.geoUpdate.crtc = s.crtc := by
  rcases geoUpdate_cases s with ⟨-, e⟩ | ⟨-, e⟩ <;> rw [e]

@[simp] theorem geoUpdate_ctrl (s : State) : s.geoUpdate.ctrl = s.ctrl := by
  rcases geoUpdate_cases s with ⟨-, e⟩ | ⟨-, e⟩ <;> rw [e]

@[simp] theorem geoUpdate_sfr (s : State) : s.geoUpdate.sfr = s.sfr := by
  rcases geoUpdate_cases s with ⟨-, e⟩ | ⟨-, e⟩ <;> rw [e]

@[simp] theorem geoUpdate_palidx (s : State) : s.geoUpdate.palidx = s.palidx := by
  rcases geoUpdate_cases s with ⟨-, e⟩ | ⟨-, e⟩ <;> rw [e]

@[simp] theorem geoUpdate_pal (s : State) : s.geoUpdate.pal = s.pal := by
  rcases geoUpdate_cases s with ⟨-, e⟩ | ⟨-, e⟩ <;> rw [e]

@[simp] theorem geoUpdate_vram (s : State) : s.geoUpdate.vram = s.vram := by
  rcases geoUpdate_cases s with ⟨-, e⟩ | ⟨-, e⟩ <;> rw [e]

@[simp] theorem geoUpdate_cram (s : State) : s.geoUpdate.cram = s.cram := by
  rcases geoUpdate_cases s with ⟨-, e⟩ | ⟨-, e⟩ <;> rw [e]

@[simp] theorem geoUpdate_dac (s : State) : s.geoUpdate.dac = s.dac := by
  rcases geoUpdate_cases s with ⟨-, e⟩ | ⟨-, e⟩ <;> rw [e]

@[simp] theorem geoUpdate_flyback (s : State) : s.geoUpdate.flyback = s.flyback := by
  rcases geoUpdate_cases s with ⟨-, e⟩ | ⟨-, e⟩ <;> rw [e]

@[simp] theorem geoUpdate_dueSound (s : State) : s.geoUpdate.dueSound = s.dueSound := by
  rcases geoUpdate_cases s with ⟨-, e⟩ | ⟨-, e⟩ <;> rw [e]

@[simp] theorem geoUpdate_now (s : State) : s.geoUpdate.now = s.now := by
  rcases geoUpdate_cases s with ⟨-, e⟩ | ⟨-, e⟩ <;> rw [e]

@[simp] theorem geoUpdate_cfg (s : State) : s.geoUpdate.cfg = s.cfg := by
  rcases geoUpdate_cases s with ⟨-, e⟩ | ⟨-, e⟩ <;> rw [e]

@[simp] theorem geoUpdate_program (s : State) : s.geoUpdate.program = s.program := by
  rcases geoUpdate_cases s with ⟨-, e⟩ | ⟨-, e⟩ <;> rw [e]

@[simp] theorem geoUpdate_replies (s : State) : s.geoUpdate.replies = s.replies := by
  rcases geoUpdate_cases s with ⟨-, e⟩ | ⟨-, e⟩ <;> rw [e]

@[simp] theorem geoUpdate_ties (s : State) : s.geoUpdate.ties = s.ties := by
  rcases geoUpdate_cases s with ⟨-, e⟩ | ⟨-, e⟩ <;> rw [e]

/-- `geo_update` writes these four fields and no other. -/
theorem geoUpdate_frame (s : State) :
    s.geoUpdate =
      { s with
        geo := s.geoUpdate.geo, vline := s.geoUpdate.vline, dueVideo := s.geoUpdate.dueVideo,
        history := s.geoUpdate.history } := by
  rcases geoUpdate_cases s with ⟨-, e⟩ | ⟨-, e⟩ <;> rw [e]

/-- `geo_update` in a state whose cached geometry is exact does nothing. -/
theorem geoUpdate_of_exact {s : State} (h : s.geo = geometry s.cfg s.crtc s.ctrl) : s.geoUpdate = s := by
  simp [State.geoUpdate, h]

/-- `geo_update` twice is `geo_update` once. -/
@[simp] theorem geoUpdate_geoUpdate (s : State) : s.geoUpdate.geoUpdate = s.geoUpdate := by
  apply geoUpdate_of_exact
  simp

/-! ### `sound_refresh` (R118) -/

/-- `sound_refresh` writes `due_sound` and nothing else. -/
theorem soundRefresh_eq (s : State) :
    s.soundRefresh =
      { s with dueSound := if 0 < soundPeriod s.cfg s.sfr then some (s.now + soundPeriod s.cfg s.sfr) else none } := rfl

@[simp] theorem soundRefresh_crtc (s : State) : s.soundRefresh.crtc = s.crtc := rfl
@[simp] theorem soundRefresh_ctrl (s : State) : s.soundRefresh.ctrl = s.ctrl := rfl
@[simp] theorem soundRefresh_sfr (s : State) : s.soundRefresh.sfr = s.sfr := rfl
@[simp] theorem soundRefresh_palidx (s : State) : s.soundRefresh.palidx = s.palidx := rfl
@[simp] theorem soundRefresh_pal (s : State) : s.soundRefresh.pal = s.pal := rfl
@[simp] theorem soundRefresh_vram (s : State) : s.soundRefresh.vram = s.vram := rfl
@[simp] theorem soundRefresh_cram (s : State) : s.soundRefresh.cram = s.cram := rfl
@[simp] theorem soundRefresh_dac (s : State) : s.soundRefresh.dac = s.dac := rfl
@[simp] theorem soundRefresh_geo (s : State) : s.soundRefresh.geo = s.geo := rfl
@[simp] theorem soundRefresh_vline (s : State) : s.soundRefresh.vline = s.vline := rfl
@[simp] theorem soundRefresh_flyback (s : State) : s.soundRefresh.flyback = s.flyback := rfl
@[simp] theorem soundRefresh_dueVideo (s : State) : s.soundRefresh.dueVideo = s.dueVideo := rfl
@[simp] theorem soundRefresh_dueSound (s : State) : s.soundRefresh.dueSound =
    if 0 < soundPeriod s.cfg s.sfr then some (s.now + soundPeriod s.cfg s.sfr) else none := rfl
@[simp] theorem soundRefresh_now (s : State) : s.soundRefresh.now = s.now := rfl
@[simp] theorem soundRefresh_history (s : State) : s.soundRefresh.history = s.history := rfl
@[simp] theorem soundRefresh_cfg (s : State) : s.soundRefresh.cfg = s.cfg := rfl
@[simp] theorem soundRefresh_program (s : State) : s.soundRefresh.program = s.program := rfl
@[simp] theorem soundRefresh_replies (s : State) : s.soundRefresh.replies = s.replies := rfl
@[simp] theorem soundRefresh_ties (s : State) : s.soundRefresh.ties = s.ties := rfl

/-! ### `stereo_refresh` (R116) -/

/-- `stereo_refresh` writes the gain pair of one channel and nothing else. -/
theorem stereoRefresh_eq (s : State) (c : BitVec 3) :
    s.stereoRefresh c =
      s.setDac c { s.dacRead c with gainL := gainLeft s.cfg (s.dacRead c).pan, gainR := gainRight s.cfg (s.dacRead c).pan } :=
  rfl

/-! ### The flyback line (R130, R131) -/

/-- Everything `updateFlyback` can do: nothing when the line is what `flyback_fn` gives, else the new line and its edge. -/
theorem updateFlyback_cases (s : State) :
    (flybackFn s.geo s.vline = s.flyback ∧ s.updateFlyback = s) ∨
      (flybackFn s.geo s.vline ≠ s.flyback ∧
        s.updateFlyback =
          { s with
            flyback := flybackFn s.geo s.vline
            history := s.history ++ [(s.now, .vblankEdge (flybackFn s.geo s.vline))] }) := by
  by_cases h : flybackFn s.geo s.vline = s.flyback
  · exact Or.inl ⟨h, by simp [State.updateFlyback, h]⟩
  · exact Or.inr ⟨h, by simp only [State.updateFlyback, h, if_false]; rfl⟩

@[simp] theorem updateFlyback_flyback (s : State) : s.updateFlyback.flyback = flybackFn s.geo s.vline := by
  rcases updateFlyback_cases s with ⟨h, e⟩ | ⟨-, e⟩ <;> rw [e]
  exact h.symm

@[simp] theorem updateFlyback_crtc (s : State) : s.updateFlyback.crtc = s.crtc := by
  rcases updateFlyback_cases s with ⟨-, e⟩ | ⟨-, e⟩ <;> rw [e]

@[simp] theorem updateFlyback_ctrl (s : State) : s.updateFlyback.ctrl = s.ctrl := by
  rcases updateFlyback_cases s with ⟨-, e⟩ | ⟨-, e⟩ <;> rw [e]

@[simp] theorem updateFlyback_sfr (s : State) : s.updateFlyback.sfr = s.sfr := by
  rcases updateFlyback_cases s with ⟨-, e⟩ | ⟨-, e⟩ <;> rw [e]

@[simp] theorem updateFlyback_palidx (s : State) : s.updateFlyback.palidx = s.palidx := by
  rcases updateFlyback_cases s with ⟨-, e⟩ | ⟨-, e⟩ <;> rw [e]

@[simp] theorem updateFlyback_pal (s : State) : s.updateFlyback.pal = s.pal := by
  rcases updateFlyback_cases s with ⟨-, e⟩ | ⟨-, e⟩ <;> rw [e]

@[simp] theorem updateFlyback_vram (s : State) : s.updateFlyback.vram = s.vram := by
  rcases updateFlyback_cases s with ⟨-, e⟩ | ⟨-, e⟩ <;> rw [e]

@[simp] theorem updateFlyback_cram (s : State) : s.updateFlyback.cram = s.cram := by
  rcases updateFlyback_cases s with ⟨-, e⟩ | ⟨-, e⟩ <;> rw [e]

@[simp] theorem updateFlyback_dac (s : State) : s.updateFlyback.dac = s.dac := by
  rcases updateFlyback_cases s with ⟨-, e⟩ | ⟨-, e⟩ <;> rw [e]

@[simp] theorem updateFlyback_geo (s : State) : s.updateFlyback.geo = s.geo := by
  rcases updateFlyback_cases s with ⟨-, e⟩ | ⟨-, e⟩ <;> rw [e]

@[simp] theorem updateFlyback_vline (s : State) : s.updateFlyback.vline = s.vline := by
  rcases updateFlyback_cases s with ⟨-, e⟩ | ⟨-, e⟩ <;> rw [e]

@[simp] theorem updateFlyback_dueVideo (s : State) : s.updateFlyback.dueVideo = s.dueVideo := by
  rcases updateFlyback_cases s with ⟨-, e⟩ | ⟨-, e⟩ <;> rw [e]

@[simp] theorem updateFlyback_dueSound (s : State) : s.updateFlyback.dueSound = s.dueSound := by
  rcases updateFlyback_cases s with ⟨-, e⟩ | ⟨-, e⟩ <;> rw [e]

@[simp] theorem updateFlyback_now (s : State) : s.updateFlyback.now = s.now := by
  rcases updateFlyback_cases s with ⟨-, e⟩ | ⟨-, e⟩ <;> rw [e]

@[simp] theorem updateFlyback_cfg (s : State) : s.updateFlyback.cfg = s.cfg := by
  rcases updateFlyback_cases s with ⟨-, e⟩ | ⟨-, e⟩ <;> rw [e]

@[simp] theorem updateFlyback_program (s : State) : s.updateFlyback.program = s.program := by
  rcases updateFlyback_cases s with ⟨-, e⟩ | ⟨-, e⟩ <;> rw [e]

@[simp] theorem updateFlyback_replies (s : State) : s.updateFlyback.replies = s.replies := by
  rcases updateFlyback_cases s with ⟨-, e⟩ | ⟨-, e⟩ <;> rw [e]

@[simp] theorem updateFlyback_ties (s : State) : s.updateFlyback.ties = s.ties := by
  rcases updateFlyback_cases s with ⟨-, e⟩ | ⟨-, e⟩ <;> rw [e]

/-- The line is true on a scanline outside the vertical display window (R130). -/
theorem flybackFn_iff (g : Geo) (line : Nat) : flybackFn g line = true ↔ ¬(g.vds ≤ line ∧ line < g.vde) := by
  by_cases h1 : g.vds ≤ line <;> by_cases h2 : line < g.vde <;> simp [flybackFn, Geo.vDisplay, Window.contains, h1, h2]

/-! ### Field widths -/

/-- A CRTC write keeps `CRTC_BITS` bits (R21, R58). -/
theorem crtcField_lt (c : Config) (x : Word) : (crtcField c x).toNat < 2 ^ c.crtcBits := by
  have := Nat.mod_lt x.toNat (Nat.two_pow_pos c.crtcBits)
  simp only [crtcField, BitVec.toNat_ofNat]
  exact Nat.lt_of_le_of_lt (Nat.mod_le _ _) this

/-- The value a CRTC write stores (R58). -/
theorem crtcField_toNat (c : Config) (x : Word) : (crtcField c x).toNat = x.toNat % 2 ^ c.crtcBits := by
  simp only [crtcField, BitVec.toNat_ofNat]
  exact Nat.mod_eq_of_lt (Nat.lt_of_le_of_lt (Nat.mod_le _ _) x.isLt)

/-- A stored control word holds no reserved bit (R22, R60). -/
@[simp] theorem ctrlField_masked (v : Variant) (x : Word) : ctrlField v x &&& ctrlMask v = ctrlField v x := by
  simp [ctrlField, BitVec.and_assoc]

/-! ### Buffers -/

/-- Reading `VRAM` after a write (R41, R106). -/
theorem vramRead_vramWrite {s : State} (h : Memory.wf s.vram) (o p : Nat) (b : Byte) :
    (s.vramWrite o b).vramRead p =
      if p % 2 ^ s.cfg.vramBits = o % 2 ^ s.cfg.vramBits then b else s.vramRead p :=
  bufRead_bufWrite h _ _ _ _

/-- Reading `CRAM` after a write (R41, R107). -/
theorem cramRead_cramWrite {s : State} (h : Memory.wf s.cram) (o p : Nat) (b : Byte) :
    (s.cramWrite o b).cramRead p =
      if p % 2 ^ s.cfg.cramBits = o % 2 ^ s.cfg.cramBits then b else s.cramRead p :=
  bufRead_bufWrite h _ _ _ _

end Sys2Proof.Machine
end

