-- ==== Sys2Proof/Laws/Compositor.lean ====
section
/-! SUPPORT. The laws of windows, packed pixels, the cursor, colours and the surface, cited instead of unfolding their Bool tests. -/

namespace Sys2Proof.Machine

/-! ### Windows -/

/-- A position lies in a window between its ends (R16). -/
@[simp] theorem contains_iff (w : Window) (p : Nat) : w.contains p = true ↔ w.start ≤ p ∧ p < w.stop := by
  unfold Window.contains
  rw [Bool.and_eq_true, decide_eq_true_iff, decide_eq_true_iff]

/-- The display window of both axes (R75, R111). -/
theorem inDisplay_iff (s : State) (x y : Nat) :
    s.inDisplay x y = true ↔ s.geo.vds ≤ y ∧ y < s.geo.vde ∧ s.geo.hds ≤ x ∧ x < s.geo.hde := by
  unfold State.inDisplay
  rw [Bool.and_eq_true, contains_iff, contains_iff, and_assoc]
  rfl

/-- The cursor is enabled when its end lies below its start (R30). -/
theorem cursorEnable_iff (c : Crtc) : cursorEnable c = true ↔ c.vcsr.toNat < c.vcer.toNat := by
  unfold cursorEnable
  rw [decide_eq_true_iff, BitVec.lt_def]

/-- The loop bounds of `render` (R112). -/
theorem inClip_iff (sf : Surface) (clip : Clip) (x y : Nat) :
    inClip sf clip x y = true ↔
      max 0 clip.cx ≤ (x : Int) ∧ (x : Int) < min (sf.width : Int) (clip.cx + clip.cw) ∧
        max 0 clip.cy ≤ (y : Int) ∧ (y : Int) < min (sf.height : Int) (clip.cy + clip.ch) := by
  unfold inClip
  rw [Bool.and_eq_true, Bool.and_eq_true, Bool.and_eq_true, decide_eq_true_iff, decide_eq_true_iff, decide_eq_true_iff,
    decide_eq_true_iff]
  tauto

/-! ### Packed pixels -/

/-- The pixel of a byte, as a number: the bits below it shifted out, the bits above it cut off (R108). -/
theorem unpackByte_toNat (x : Byte) (bit b : Nat) (hb : b ≤ 8) :
    (unpackByte x bit b).toNat = x.toNat / 2 ^ (8 - b - bit % 8) % 2 ^ b := by
  have hle : 2 ^ b ≤ 2 ^ 8 := Nat.pow_le_pow_right (by decide) hb
  have hmask : (2 ^ b - 1) % 2 ^ 8 = 2 ^ b - 1 := Nat.mod_eq_of_lt (by omega)
  unfold unpackByte
  rw [BitVec.toNat_and, BitVec.toNat_ushiftRight, BitVec.toNat_ofNat, Nat.shiftRight_eq_div_pow, hmask,
    Nat.and_two_pow_sub_one_eq_mod]

/-! ### The cursor -/

/-- No cursor pixel where the cursor is disabled or does not reach (R110). -/
theorem cursorIndex_of_off {s : State} {x y : Nat}
    (h : ¬ (s.crtc.vcsr.toNat < s.crtc.vcer.toNat ∧
      s.crtc.vcsr.toNat ≤ y ∧ y < s.crtc.vcer.toNat ∧ s.hcs ≤ x ∧ x < s.hcs + s.cfg.cursorW)) :
    s.cursorIndex x y = 0 := by
  unfold State.cursorIndex
  by_cases he : cursorEnable s.crtc = true
  · have hc : (s.cursorRows.contains y && s.cursorColumns.contains x) = false := by
      rw [← Bool.not_eq_true, Bool.and_eq_true, contains_iff, contains_iff]
      exact fun hc => h ⟨(cursorEnable_iff _).mp he, hc.1.1, hc.1.2, hc.2.1, hc.2.2⟩
    simp [hc]
  · simp [he]

/-- On the cursor, its pixel (R110). -/
theorem cursorIndex_of_on {s : State} {x y : Nat} (h1 : s.crtc.vcsr.toNat ≤ y) (h2 : y < s.crtc.vcer.toNat)
    (h3 : s.hcs ≤ x) (h4 : x < s.hcs + s.cfg.cursorW) :
    s.cursorIndex x y = s.unpackCram ((y - s.crtc.vcsr.toNat) * s.cfg.cursorW + (x - s.hcs)) 2 := by
  have he : cursorEnable s.crtc = true := (cursorEnable_iff _).mpr (Nat.lt_of_le_of_lt h1 h2)
  have hr : s.cursorRows.contains y = true := (contains_iff _ _).mpr ⟨h1, h2⟩
  have hc : s.cursorColumns.contains x = true := (contains_iff _ _).mpr ⟨h3, h4⟩
  simp [State.cursorIndex, he, hr, hc]

/-! ### The pixel -/

/-- The three cases of a pixel (R111). -/
theorem pixel_of_cursor {s : State} {x y : Nat} (h : s.cursorIndex x y ≠ 0) :
    s.pixel x y = toPixel s.cfg.variant (s.cursorColour (s.cursorIndex x y)) := by
  unfold State.pixel
  exact if_pos h

theorem pixel_of_display {s : State} {x y : Nat} (h : s.cursorIndex x y = 0) (hd : s.inDisplay x y = true) :
    s.pixel x y = toPixel s.cfg.variant (s.mainColour (s.mainIndex x y)) := by
  simp [State.pixel, h, hd]

theorem pixel_of_border {s : State} {x y : Nat} (h : s.cursorIndex x y = 0) (hd : s.inDisplay x y = false) :
    s.pixel x y = toPixel s.cfg.variant s.borderColour := by
  simp [State.pixel, h, hd]

/-! ### The surface -/

/-- A pixel of the surface `render` leaves, by column and row (R112). -/
theorem renderSurface_pixel (s : State) {sf : Surface} (clip : Clip) (hw : sf.wf = true) {x y : Nat} (hx : x < sf.width)
    (hy : y < sf.height) :
    (s.renderSurface sf clip).pixels[y * sf.width + x]? =
      if inClip sf clip x y then some (s.pixel x y) else sf.pixels[y * sf.width + x]? := by
  have hlen : sf.pixels.length = sf.width * sf.height := by simpa [Surface.wf] using hw
  have hlt : y * sf.width + x < sf.pixels.length := by
    have : (y + 1) * sf.width ≤ sf.height * sf.width := Nat.mul_le_mul_right _ hy
    rw [hlen, Nat.mul_comm sf.width]
    rw [Nat.add_mul] at this
    omega
  have hmod : (y * sf.width + x) % sf.width = x := by rw [Nat.mul_comm, Nat.mul_add_mod]; exact Nat.mod_eq_of_lt hx
  have hdiv : (y * sf.width + x) / sf.width = y := by
    rw [Nat.mul_comm, Nat.mul_add_div (by omega), Nat.div_eq_of_lt hx]
    simp
  simp only [State.renderSurface, List.getElem?_mapIdx, hmod, hdiv, List.getElem?_eq_getElem hlt, Option.map_some]
  split <;> rfl

/-! ### The sound timer -/

/-- `sound_refresh` with a positive period (R118). -/
theorem soundRefresh_dueSound_of_pos {s : State} (h : 0 < soundPeriod s.cfg s.sfr) :
    s.soundRefresh.dueSound = some (s.now + soundPeriod s.cfg s.sfr) := by
  rw [soundRefresh_dueSound]
  exact if_pos h

/-- `sound_refresh` with no positive period (R118). -/
theorem soundRefresh_dueSound_of_not_pos {s : State} (h : ¬ 0 < soundPeriod s.cfg s.sfr) :
    s.soundRefresh.dueSound = none := by
  rw [soundRefresh_dueSound]
  exact if_neg h

end Sys2Proof.Machine
end

