-- ==== Sys2Proof/Laws/Decode.lean ====
section
/-! SUPPORT. The laws of the decoder's parts: the window offset (R38, R50), the byte frame, and the decode at each offset. -/

namespace Sys2Proof

/-- Only bits [7:2] of an address matter (R38). -/
theorem windowOffset_congr {a b : Word} (h : a.extractLsb' 2 6 = b.extractLsb' 2 6) : windowOffset a = windowOffset b := by
  have byte : ∀ y : Byte, y &&& 0xFC#8 = (y.extractLsb' 2 6).setWidth 8 <<< 2 := by decide
  have low : ∀ x : Word, (x.extractLsb' 0 8).extractLsb' 2 6 = x.extractLsb' 2 6 := by
    intro x
    apply BitVec.eq_of_getLsbD_eq
    intro i hi
    simp [hi]
  unfold windowOffset
  rw [byte, byte, low, low, h]

/-- The offset of a word of the window is that word's own. -/
theorem windowOffset_windowAddress (base index : Fin 64) (h : base.val + index.val < 64) :
    windowOffset (windowAddress (BitVec.ofNat 32 (4 * base.val)) index.val) =
      BitVec.ofNat 8 (4 * (base.val + index.val)) := by
  revert h index base
  decide +kernel

@[simp] theorem wordOfBytes_bytesOfWord (w : Word) :
    wordOfBytes (w.extractLsb' 0 8) (w.extractLsb' 8 8) (w.extractLsb' 16 8) (w.extractLsb' 24 8) = w := by
  unfold wordOfBytes
  apply BitVec.eq_of_getLsbD_eq
  intro i hi
  simp only [BitVec.getLsbD_cast, BitVec.getLsbD_append, BitVec.getLsbD_extractLsb']
  by_cases h1 : i < 8
  · simp [h1]
  · by_cases h2 : i < 16
    · simp [h1, show i - 8 < 8 by omega, show 8 + (i - 8) = i by omega]
    · by_cases h3 : i < 24
      · simp [h1, show ¬ i - 8 < 8 by omega, show i - 8 - 8 < 8 by omega, show 16 + (i - 8 - 8) = i by omega]
      · simp [h1, show ¬ i - 8 < 8 by omega, show ¬ i - 8 - 8 < 8 by omega, show i - 8 - 8 - 8 < 8 by omega,
          show 24 + (i - 8 - 8 - 8) = i by omega]

/-- A frame decodes to its register write, whatever follows it. -/
theorem decodeBytes_frame (v : Variant) (address value : Word) (rest : List Byte) :
    decodeBytes v (bytesOfWord address ++ bytesOfWord value ++ rest) = .instr (decodeWrite v address value) rest := by
  simp [bytesOfWord, decodeBytes]

/-- The decode at the offset of a word of the window. -/
theorem decodeWrite_windowAddress (v : Variant) (base index : Fin 64) (h : base.val + index.val < 64) (x : Word) :
    decodeWrite v (windowAddress (BitVec.ofNat 32 (4 * base.val)) index.val) x =
      decodeOffset v (BitVec.ofNat 8 (4 * (base.val + index.val))) x := by
  rw [decodeWrite, windowOffset_windowAddress base index h]

theorem decodeOffset_palMain (v : Variant) (i : BitVec 4) (x : Word) :
    decodeOffset v (BitVec.ofNat 8 (4 * i.toNat)) x = .palMain i x := by
  have hlt : ∀ i : BitVec 4, BitVec.ofNat 8 (4 * i.toNat) < 0x40#8 := by decide
  have hidx : ∀ i : BitVec 4, (BitVec.ofNat 8 (4 * i.toNat)).extractLsb' 2 4 = i := by decide
  unfold decodeOffset
  rw [if_pos (hlt i), hidx]

theorem decodeOffset_stereo (v : Variant) (ch : BitVec 3) (x : Word) :
    decodeOffset v (BitVec.ofNat 8 (4 * (24 + ch.toNat))) x = .stereo ch x := by
  have h : ∀ ch : BitVec 3, ¬ BitVec.ofNat 8 (4 * (24 + ch.toNat)) < 0x60#8 ∧
      BitVec.ofNat 8 (4 * (24 + ch.toNat)) < 0x80#8 ∧
      (BitVec.ofNat 8 (4 * (24 + ch.toNat))).extractLsb' 2 3 = ch := by decide
  obtain ⟨h1, h2, h3⟩ := h ch
  have below : ∀ c : Byte, c ≤ 0x60#8 → ¬ BitVec.ofNat 8 (4 * (24 + ch.toNat)) < c :=
    fun c hc hlt => h1 (Nat.lt_of_lt_of_le hlt hc)
  simp only [decodeOffset, below 0x40#8 (by decide), below 0x44#8 (by decide), below 0x48#8 (by decide),
    below 0x4C#8 (by decide), below 0x50#8 (by decide), below 0x58#8 (by decide), h1, h2, h3, if_false, if_true]

theorem decodeWrite_palMain (v : Variant) (i : BitVec 4) (x : Word) :
    decodeWrite v (windowAddress 0x00#32 i.toNat) x = .palMain i x := by
  have := decodeWrite_windowAddress v 0 ⟨i.toNat, by omega⟩ (by simp; omega) x
  simpa using this.trans (by simpa using decodeOffset_palMain v i x)

theorem decodeWrite_stereo (v : Variant) (ch : BitVec 3) (x : Word) :
    decodeWrite v (windowAddress 0x60#32 ch.toNat) x = .stereo ch x := by
  have h : ∀ ch : BitVec 3, windowOffset (windowAddress 0x60#32 ch.toNat) = BitVec.ofNat 8 (4 * (24 + ch.toNat)) := by
    decide
  rw [decodeWrite, h, decodeOffset_stereo]

end Sys2Proof
end

