-- ==== Sys2Proof/Laws/Exec.lean ====
section
/-! SUPPORT. What no instruction does: it never moves the virtual time, the configuration, the host's program or the count of
ties, and it emits at most one event. -/

namespace Sys2Proof.Machine

/-- The four fields a step sets around an instruction, which the instruction itself leaves alone. -/
structure SameFrame (s t : State) : Prop where
  now : t.now = s.now
  cfg : t.cfg = s.cfg
  program : t.program = s.program
  ties : t.ties = s.ties

/-- No instruction moves virtual time (R42, R155), the configuration (R10), the program or the count of ties. -/
theorem exec_sameFrame {i : Instr} {s t : State} (h : exec i s = .next t) : SameFrame s t := by
  cases i with
  | ctrl x =>
    simp only [exec, execCtrl] at h
    split at h <;> cases h <;> constructor <;> simp [State.ctrlWrite]
  | pal8 x =>
    simp only [exec, execPal8] at h
    split at h <;> cases h <;> constructor <;> rfl
  | palidx x =>
    simp only [exec, execPalidx] at h
    split at h <;> cases h <;> constructor <;> rfl
  | border x => cases h; constructor <;> rfl
  | curpal1 x => cases h; constructor <;> rfl
  | curpal2 x => cases h; constructor <;> rfl
  | curpal3 x => cases h; constructor <;> rfl
  | videoFire => cases h; constructor <;> simp
  | soundFire => cases h; constructor <;> simp
  | _ => cases h; constructor <;> simp [State.crtcWrite, State.palMainWrite, stereoRefresh_eq, State.resetEvent]

/-- An instruction emits one event, stamped with the time, or none (R124, R137). -/
theorem exec_history {i : Instr} {s t : State} (h : exec i s = .next t) :
    t.history = s.history ∨ ∃ e, t.history = s.history ++ [(s.now, e)] := by
  have geo : ∀ u : State, u.geoUpdate.history = u.history ∨ ∃ e, u.geoUpdate.history = u.history ++ [(u.now, e)] := by
    intro u
    rcases geoUpdate_cases u with ⟨-, e⟩ | ⟨-, e⟩ <;> rw [e]
    · exact Or.inl rfl
    · exact Or.inr ⟨_, rfl⟩
  have crtc : ∀ k x, exec i s = .next (s.crtcWrite k x) →
      t.history = s.history ∨ ∃ e, t.history = s.history ++ [(s.now, e)] := by
    intro k x hk
    rw [hk] at h
    cases h
    exact geo (s.setCrtc k (crtcField s.cfg x))
  cases i with
  | crtcHcr x => exact crtc .hcr x rfl
  | crtcHswr x => exact crtc .hswr x rfl
  | crtcHbsr x => exact crtc .hbsr x rfl
  | crtcHber x => exact crtc .hber x rfl
  | crtcHdsr x => exact crtc .hdsr x rfl
  | crtcHder x => exact crtc .hder x rfl
  | crtcHcsr x => exact crtc .hcsr x rfl
  | crtcHcer x => exact crtc .hcer x rfl
  | crtcVcr x => exact crtc .vcr x rfl
  | crtcVswr x => exact crtc .vswr x rfl
  | crtcVbsr x => exact crtc .vbsr x rfl
  | crtcVber x => exact crtc .vber x rfl
  | crtcVdsr x => exact crtc .vdsr x rfl
  | crtcVder x => exact crtc .vder x rfl
  | crtcVcsr x => exact crtc .vcsr x rfl
  | crtcVcer x => exact crtc .vcer x rfl
  | ctrl x =>
    have := geo (s.setCtrl (ctrlField s.cfg.variant x))
    simp only [exec, execCtrl] at h
    split at h <;> cases h <;> simpa [State.ctrlWrite] using this
  | pal8 x =>
    simp only [exec, execPal8] at h
    split at h <;> cases h <;> exact Or.inl rfl
  | palidx x =>
    simp only [exec, execPalidx] at h
    split at h <;> cases h <;> exact Or.inl rfl
  | videoFire =>
    cases h
    rcases updateFlyback_cases (s.setVline ((s.vline + 1) % s.geo.vt)) with ⟨-, e⟩ | ⟨-, e⟩ <;> rw [e]
    · exact Or.inl rfl
    · exact Or.inr ⟨_, rfl⟩
  | soundFire => cases h; exact Or.inr ⟨_, rfl⟩
  | _ => cases h; exact Or.inl rfl

end Sys2Proof.Machine
end

