-- ==== Sys2Proof/Laws/PerInstr.lean ====
section
/-! SUPPORT. Statements about every instruction as syntax, one lemma per constructor. -/

namespace Sys2Proof.Laws.RoundTrip

/-- Where the instruction exists on the variant, the call that encodes it decodes to it. -/
def Statement (i : Instr) : Prop := ∀ v c, i.wf v = true → encode i = some c → decodeCall v c = i

theorem palMain (i : BitVec 4) (x : Word) : Statement (.palMain i x) := by
  rintro v c - ⟨⟩
  exact decodeWrite_palMain v i x

theorem border (x : Word) : Statement (.border x) := by
  rintro v c - ⟨⟩
  cases v <;> rfl

theorem curpal1 (x : Word) : Statement (.curpal1 x) := by
  rintro v c - ⟨⟩
  cases v <;> rfl

theorem curpal2 (x : Word) : Statement (.curpal2 x) := by
  rintro v c - ⟨⟩
  cases v <;> rfl

theorem curpal3 (x : Word) : Statement (.curpal3 x) := by
  rintro v c - ⟨⟩
  cases v <;> rfl

theorem pal8 (x : Word) : Statement (.pal8 x) := by
  rintro v c h ⟨⟩
  obtain rfl : v = .gen2 := by simpa [Instr.wf] using h
  rfl

theorem palidx (x : Word) : Statement (.palidx x) := by
  rintro v c h ⟨⟩
  obtain rfl : v = .gen2 := by simpa [Instr.wf] using h
  rfl

theorem holeGen1 (x : Word) : Statement (.holeGen1 x) := by
  rintro v c h ⟨⟩
  cases v <;> first | rfl | simp [Instr.wf] at h

theorem hole (x : Word) : Statement (.hole x) := by
  rintro v c - ⟨⟩
  cases v <;> rfl

theorem stereo (ch : BitVec 3) (x : Word) : Statement (.stereo ch x) := by
  rintro v c - ⟨⟩
  exact decodeWrite_stereo v ch x

theorem crtcHcr (x : Word) : Statement (.crtcHcr x) := by
  rintro v c - ⟨⟩
  cases v <;> rfl

theorem crtcHswr (x : Word) : Statement (.crtcHswr x) := by
  rintro v c - ⟨⟩
  cases v <;> rfl

theorem crtcHbsr (x : Word) : Statement (.crtcHbsr x) := by
  rintro v c - ⟨⟩
  cases v <;> rfl

theorem crtcHber (x : Word) : Statement (.crtcHber x) := by
  rintro v c - ⟨⟩
  cases v <;> rfl

theorem crtcHdsr (x : Word) : Statement (.crtcHdsr x) := by
  rintro v c - ⟨⟩
  cases v <;> rfl

theorem crtcHder (x : Word) : Statement (.crtcHder x) := by
  rintro v c - ⟨⟩
  cases v <;> rfl

theorem crtcHcsr (x : Word) : Statement (.crtcHcsr x) := by
  rintro v c - ⟨⟩
  cases v <;> rfl

theorem crtcHcer (x : Word) : Statement (.crtcHcer x) := by
  rintro v c - ⟨⟩
  cases v <;> rfl

theorem crtcVcr (x : Word) : Statement (.crtcVcr x) := by
  rintro v c - ⟨⟩
  cases v <;> rfl

theorem crtcVswr (x : Word) : Statement (.crtcVswr x) := by
  rintro v c - ⟨⟩
  cases v <;> rfl

theorem crtcVbsr (x : Word) : Statement (.crtcVbsr x) := by
  rintro v c - ⟨⟩
  cases v <;> rfl

theorem crtcVber (x : Word) : Statement (.crtcVber x) := by
  rintro v c - ⟨⟩
  cases v <;> rfl

theorem crtcVdsr (x : Word) : Statement (.crtcVdsr x) := by
  rintro v c - ⟨⟩
  cases v <;> rfl

theorem crtcVder (x : Word) : Statement (.crtcVder x) := by
  rintro v c - ⟨⟩
  cases v <;> rfl

theorem crtcVcsr (x : Word) : Statement (.crtcVcsr x) := by
  rintro v c - ⟨⟩
  cases v <;> rfl

theorem crtcVcer (x : Word) : Statement (.crtcVcer x) := by
  rintro v c - ⟨⟩
  cases v <;> rfl

theorem sfr (x : Word) : Statement (.sfr x) := by
  rintro v c - ⟨⟩
  cases v <;> rfl

theorem ctrl (x : Word) : Statement (.ctrl x) := by
  rintro v c - ⟨⟩
  cases v <;> rfl

theorem writeVram (o b : Nat) : Statement (.writeVram o b) := by
  rintro v c - ⟨⟩
  rfl

theorem writeCram (o b : Nat) : Statement (.writeCram o b) := by
  rintro v c - ⟨⟩
  rfl

theorem writeDac (c x : Nat) : Statement (.writeDac c x) := by
  rintro v c - ⟨⟩
  rfl

theorem clearDac (c : Nat) : Statement (.clearDac c) := by
  rintro v c - ⟨⟩
  rfl

theorem dacLevel (c : Nat) : Statement (.dacLevel c) := by
  rintro v c - ⟨⟩
  rfl

theorem flybackR : Statement (.flybackR) := by
  rintro v c - ⟨⟩
  rfl

theorem render (sf : Surface) (clip : Clip) : Statement (.render sf clip) := by
  rintro v c - ⟨⟩
  rfl

theorem reset : Statement (.reset) := by
  rintro v c - ⟨⟩
  rfl

theorem videoFire : Statement (.videoFire) := by
  rintro v c - ⟨⟩

theorem soundFire : Statement (.soundFire) := by
  rintro v c - ⟨⟩

end Sys2Proof.Laws.RoundTrip
end

