-- ==== Sys2Proof/Laws/Scheduler.lean ====
section
/-! SUPPORT. The laws of the scheduler: its Bool tests say what the step relation R125 says, and `stepWith` takes one of the
candidates, each by some choice. -/

namespace Sys2Proof.Machine

theorem notBefore_iff (due : Option Time) (t : Time) : notBefore due t = true ↔ ∀ d, due = some d → t ≤ d := by
  cases due <;> simp [notBefore]

/-- `due_ok` (R125). -/
theorem dueOk_iff (s : State) (t : Time) : s.dueOk t = true ↔ NoneDueBefore s t := by
  simp [State.dueOk, NoneDueBefore, notBefore_iff]

theorem hostEnabled_iff (s : State) (t : Time) : s.hostEnabled t = true ↔ s.now ≤ t ∧ NoneDueBefore s t := by
  simp [State.hostEnabled, dueOk_iff]

theorem fireEnabled_iff (s : State) (k : TimerKind) :
    s.fireEnabled k = true ↔ ∃ d, s.due k = some d ∧ NoneDueBefore s d := by
  cases h : s.due k <;> simp [State.fireEnabled, h, dueOk_iff]

theorem hostBefore_iff (s : State) (k : TimerKind) :
    s.hostBefore k = true ↔
      ∃ h rest d, s.program = h :: rest ∧ s.due k = some d ∧ s.hostEnabled h.time = true ∧ h.time < d := by
  cases hp : s.program <;> cases hd : s.due k <;> simp [State.hostBefore, hp, hd]

/-- The candidates are the labels a run may take. -/
theorem mem_candidates (s : State) (l : Label) : l ∈ s.candidates ↔ s.mayTake l = true := by
  rcases l with _ | _ | _ <;> simp [State.candidates]

theorem host_mem_candidates (s : State) :
    .host ∈ s.candidates ↔ ∃ h rest, s.program = h :: rest ∧ s.now ≤ h.time ∧ NoneDueBefore s h.time := by
  rw [mem_candidates]
  cases hp : s.program <;> simp [State.mayTake, hp, hostEnabled_iff]

theorem fire_mem_candidates (s : State) (k : TimerKind) :
    .fire k ∈ s.candidates ↔ (∃ d, s.due k = some d ∧ NoneDueBefore s d) ∧ s.hostBefore k = false := by
  rw [mem_candidates]
  simp [State.mayTake, fireEnabled_iff]

/-! ### Picking a candidate -/

theorem pickLabel_eq_none_iff (n : Nat) (ls : List Label) : pickLabel n ls = none ↔ ls = [] := by
  match ls with
  | [] => simp [pickLabel]
  | [l] => simp [pickLabel]
  | l :: m :: ls =>
    have hlt : n % (ls.length + 2) < ls.length + 2 := Nat.mod_lt n (by omega)
    simp only [pickLabel, List.getElem?_eq_none_iff, List.length_cons, reduceCtorEq, iff_false]
    omega

theorem pickLabel_mem {n : Nat} {ls : List Label} {l : Label} (h : pickLabel n ls = some l) : l ∈ ls := by
  match ls with
  | [] => simp [pickLabel] at h
  | [m] => simpa [pickLabel, eq_comm] using h
  | m :: m' :: ls => exact List.mem_of_getElem? h

/-- Every candidate is picked by some choice. -/
theorem exists_pickLabel {ls : List Label} {l : Label} (h : l ∈ ls) : ∃ n, pickLabel n ls = some l := by
  match ls with
  | [] => simp at h
  | [m] => exact ⟨0, by simp_all [pickLabel]⟩
  | m :: m' :: ls =>
    obtain ⟨n, hn, rfl⟩ := List.getElem_of_mem h
    refine ⟨n, ?_⟩
    have : n % (ls.length + 2) = n := Nat.mod_eq_of_lt hn
    simp [pickLabel, this]

/-! ### Taking a step -/

/-- Everything a step can do: take one of the candidates, or stop where there is none. -/
theorem stepWith_cases (n : Nat) (s : State) :
    (s.candidates = [] ∧ stepWith n s = .fault s.stuckReason) ∨
      ∃ l ∈ s.candidates, stepWith n s = takeStep l s := by
  unfold stepWith
  cases h : pickLabel n s.candidates with
  | none => exact Or.inl ⟨(pickLabel_eq_none_iff n _).mp h, rfl⟩
  | some l => exact Or.inr ⟨l, pickLabel_mem h, rfl⟩

/-- With one candidate a step takes it, whatever the choice. -/
theorem stepWith_of_single {s : State} {l : Label} (h : s.candidates = [l]) (n : Nat) : stepWith n s = takeStep l s := by
  simp [stepWith, h, pickLabel]

/-- Taking the host step: the decoded call, at its time. -/
theorem takeStep_host {s : State} {h : HostStep} {rest : List HostStep} (hp : s.program = h :: rest) :
    takeStep .host s = exec (decodeCall s.cfg.variant h.call)
      { s with now := h.time, program := rest, ties := tiesAfter s.ties s.candidates } := by
  simp [takeStep, State.labelInstr, hp, State.prepare, State.labelTime, State.programAfter]

/-- Taking a timer step: the handler, at the due time. -/
theorem takeStep_fire {s : State} {k : TimerKind} {d : Time} (hd : s.due k = some d) :
    takeStep (.fire k) s =
      exec (dispatchTimer k) { s with now := d, ties := tiesAfter s.ties s.candidates } := by
  simp [takeStep, State.labelInstr, State.prepare, State.labelTime, State.programAfter, hd]

end Sys2Proof.Machine
end

