-- ==== Sys2Proof/Laws/Runs.lean ====
section
/-! SUPPORT. The laws of runs (45_scheduler.md R128): what one step of a run can be, that the count of ties is carried along and never
looked at by an instruction, and what a run does with more steps. -/

namespace Sys2Proof.Machine

open Host (Outcome)

/-! ### The count of ties -/

@[simp] theorem geoUpdate_with_ties (s : State) (n : Nat) :
    State.geoUpdate { s with ties := n } = { s.geoUpdate with ties := n } := by
  unfold State.geoUpdate
  by_cases h : geometry s.cfg s.crtc s.ctrl = s.geo
  · simp only [h, if_true]
  · simp only [h, if_false]
    rfl

@[simp] theorem updateFlyback_with_ties (s : State) (n : Nat) :
    State.updateFlyback { s with ties := n } = { s.updateFlyback with ties := n } := by
  unfold State.updateFlyback
  by_cases h : flybackFn s.geo s.vline = s.flyback
  · simp only [h, if_true]
  · simp only [h, if_false]
    rfl

/-- No instruction looks at the count of ties (log 6). -/
theorem exec_with_ties {i : Instr} {s t : State} (n : Nat) (h : exec i s = .next t) :
    exec i { s with ties := n } = .next { t with ties := n } := by
  have crtc : ∀ k x, State.crtcWrite { s with ties := n } k x = { s.crtcWrite k x with ties := n } := fun k x =>
    geoUpdate_with_ties (s.setCrtc k (crtcField s.cfg x)) n
  have ctrl : ∀ x, State.ctrlWrite { s with ties := n } x = { s.ctrlWrite x with ties := n } := fun x =>
    geoUpdate_with_ties (s.setCtrl (ctrlField s.cfg.variant x)) n
  cases i with
  | ctrl x =>
    simp only [exec, execCtrl, ctrl] at h ⊢
    split at h <;> cases h <;> rfl
  | pal8 x =>
    simp only [exec, execPal8] at h ⊢
    split at h <;> cases h <;> rfl
  | palidx x =>
    simp only [exec, execPalidx] at h ⊢
    split at h <;> cases h <;> rfl
  | videoFire =>
    cases h
    exact congrArg (fun u : State => Outcome.next (u.arm .video (s.geo.tLine.map (s.now + ·))))
      (updateFlyback_with_ties (s.setVline ((s.vline + 1) % s.geo.vt)) n) |>.trans (by simp; rfl)
  | border x => cases h; rfl
  | curpal1 x => cases h; rfl
  | curpal2 x => cases h; rfl
  | curpal3 x => cases h; rfl
  | crtcHcr x => cases h; exact congrArg _ (crtc .hcr x)
  | crtcHswr x => cases h; exact congrArg _ (crtc .hswr x)
  | crtcHbsr x => cases h; exact congrArg _ (crtc .hbsr x)
  | crtcHber x => cases h; exact congrArg _ (crtc .hber x)
  | crtcHdsr x => cases h; exact congrArg _ (crtc .hdsr x)
  | crtcHder x => cases h; exact congrArg _ (crtc .hder x)
  | crtcHcsr x => cases h; exact congrArg _ (crtc .hcsr x)
  | crtcHcer x => cases h; exact congrArg _ (crtc .hcer x)
  | crtcVcr x => cases h; exact congrArg _ (crtc .vcr x)
  | crtcVswr x => cases h; exact congrArg _ (crtc .vswr x)
  | crtcVbsr x => cases h; exact congrArg _ (crtc .vbsr x)
  | crtcVber x => cases h; exact congrArg _ (crtc .vber x)
  | crtcVdsr x => cases h; exact congrArg _ (crtc .vdsr x)
  | crtcVder x => cases h; exact congrArg _ (crtc .vder x)
  | crtcVcsr x => cases h; exact congrArg _ (crtc .vcsr x)
  | crtcVcer x => cases h; exact congrArg _ (crtc .vcer x)
  | _ => cases h; rfl

/-! ### One step of a run -/

/-- Everything a step that goes on can be: the program's next call, or a timer that is due. -/
theorem stepWith_next_cases {n : Nat} {s t : State} (h : stepWith n s = .next t) :
    (∃ c rest, s.program = c :: rest ∧ s.now ≤ c.time ∧ NoneDueBefore s c.time ∧
      exec (decodeCall s.cfg.variant c.call)
        { s with now := c.time, program := rest, ties := tiesAfter s.ties s.candidates } = .next t) ∨
    ∃ k d, s.due k = some d ∧ NoneDueBefore s d ∧ s.hostBefore k = false ∧
      exec (dispatchTimer k) { s with now := d, ties := tiesAfter s.ties s.candidates } = .next t := by
  rcases stepWith_cases n s with ⟨-, e⟩ | ⟨l, hl, e⟩ <;> rw [e] at h
  · cases h
  · cases l with
    | host =>
      obtain ⟨c, rest, hp, hle, hn⟩ := (host_mem_candidates s).mp hl
      rw [takeStep_host hp] at h
      exact Or.inl ⟨c, rest, hp, hle, hn, h⟩
    | fire k =>
      obtain ⟨⟨d, hd, hn⟩, hb⟩ := (fire_mem_candidates s k).mp hl
      rw [takeStep_fire hd] at h
      exact Or.inr ⟨k, d, hd, hn, hb, h⟩

/-- A fire of a run whose next call is not overdue comes no later than that call. -/
theorem fire_le_of_not_hostBefore {s : State} {c : HostStep} {rest : List HostStep} {k : TimerKind} {d : Time}
    (hp : s.program = c :: rest) (hle : s.now ≤ c.time) (hd : s.due k = some d) (hn : NoneDueBefore s d)
    (hb : s.hostBefore k = false) : d ≤ c.time := by
  by_contra hlt
  rw [not_le] at hlt
  have : s.hostBefore k = true := by
    rw [hostBefore_iff]
    exact ⟨c, rest, d, hp, hd, (hostEnabled_iff s c.time).mpr ⟨hle, fun e he => le_of_lt (lt_of_lt_of_le hlt (hn.1 e he)),
      fun e he => le_of_lt (lt_of_lt_of_le hlt (hn.2 e he))⟩, hlt⟩
  rw [hb] at this
  cases this

/-- A step of a run leaves a program that can be run. -/
theorem ProgramReady.stepWith {n : Nat} {s t : State} (hr : ProgramReady s) (hs : s.program ≠ [])
    (h : stepWith n s = .next t) : ProgramReady t := by
  rcases stepWith_next_cases h with ⟨c, rest, hp, -, -, e⟩ | ⟨k, d, hd, hn, hb, e⟩
  · have hf := exec_sameFrame e
    have ho := hr.ordered
    rw [hp, programOrdered, List.pairwise_cons] at ho
    refine ⟨?_, ?_⟩
    · rw [hf.program]
      exact ho.2
    · rw [hf.program, hf.now]
      exact ho.1
  · have hf := exec_sameFrame e
    obtain ⟨c, rest, hp⟩ := List.exists_cons_of_ne_nil hs
    have hle : d ≤ c.time := fire_le_of_not_hostBefore hp (hr.ahead c (by simp [hp])) hd hn hb
    refine ⟨?_, ?_⟩
    · rw [hf.program]
      exact hr.ordered
    · rw [hf.program, hf.now]
      intro c' hc'
      have ho := hr.ordered
      replace hc' : c' ∈ s.program := hc'
      rw [hp] at hc' ho
      rcases List.mem_cons.mp hc' with rfl | hc'
      · exact hle
      · exact le_trans hle ((List.pairwise_cons.mp ho).1 c' hc')

/-! ### Runs -/

@[simp] theorem runProgram_of_nil {choice : Nat → Nat} {k : Nat} {s : State} (h : s.program = []) :
    runProgram choice k s = .ended s := by
  cases k <;> simp [runProgram, h]

/-- One step of a run with calls to come. -/
theorem runProgram_of_next {choice : Nat → Nat} {k : Nat} {s t : State} (hs : s.program ≠ [])
    (h : stepWith (choice s.ties) s = .next t) : runProgram choice (k + 1) s = runProgram choice k t := by
  obtain ⟨c, rest, hp⟩ := List.exists_cons_of_ne_nil hs
  simp [runProgram, hp, h]

/-- What an ended run was: over already, or one step and then an ended run. -/
theorem runProgram_ended_cases {choice : Nat → Nat} {k : Nat} {s t : State} (h : runProgram choice k s = .ended t) :
    (s.program = [] ∧ t = s) ∨
      ∃ j u, k = j + 1 ∧ s.program ≠ [] ∧ stepWith (choice s.ties) s = .next u ∧ runProgram choice j u = .ended t := by
  by_cases hs : s.program = []
  · rw [runProgram_of_nil hs] at h
    cases h
    exact Or.inl ⟨hs, rfl⟩
  · obtain ⟨c, rest, hp⟩ := List.exists_cons_of_ne_nil hs
    cases k with
    | zero => simp [runProgram, hp] at h
    | succ j =>
      cases hstep : stepWith (choice s.ties) s with
      | next u => exact Or.inr ⟨j, u, rfl, hs, rfl, by simpa [runProgram, hp, hstep] using h⟩
      | fault r => simp [runProgram, hp, hstep] at h
      | refused r => simp [runProgram, hp, hstep] at h

/-- An ended run stays as it ended, however many more steps it is given. -/
theorem runProgram_ended_mono {choice : Nat → Nat} {k : Nat} {s t : State} (h : runProgram choice k s = .ended t) (j : Nat) :
    runProgram choice (k + j) s = .ended t := by
  induction k generalizing s with
  | zero =>
    rcases runProgram_ended_cases h with ⟨hs, rfl⟩ | ⟨_, _, hk, -⟩
    · exact runProgram_of_nil hs
    · cases hk
  | succ k ih =>
    rcases runProgram_ended_cases h with ⟨hs, rfl⟩ | ⟨i, u, hk, hs, hstep, hu⟩
    · exact runProgram_of_nil hs
    · obtain rfl : k = i := by omega
      rw [Nat.add_right_comm, runProgram_of_next hs hstep]
      exact ih hu

end Sys2Proof.Machine
end

