-- ==== Sys2Proof/Tests/Slice0.lean ====
section
/-! SUPPORT. Tests on single operations and steps, their expected results from 95_test_vectors.md (a V number) or written out from
the rule named, and for each obligation with hypotheses a theorem that shows values meeting them. -/

namespace Sys2Proof.Tests

-- Each kernel evaluation waits for the declarations before it: one after another, they need no thread each.
set_option Elab.async false

open Sys2Proof Sys2Proof.Machine
open Host (Outcome)

/-! ### Small states -/

/-- A device of the variant, as constructed. -/
def fresh (v : Variant) : State := State.construct (defaultConfig v) [] []

/-- The state with these CRTC slots and control word, and the geometry they give. -/
def withRegs (s : State) (r : Crtc) (w : Word) : State :=
  { s with crtc := r, ctrl := w, geo := geometry s.cfg r w }

/-- The registers of the start of 95_test_vectors.md section 2.7: HCR 512, VCR 312, VDSR 16, VDER 272. -/
def scanRegs : Crtc := { Crtc.zero with hcr := 512, vcr := 312, vdsr := 16, vder := 272 }

/-- A GEN1 device that scans scanlines of 64 us. -/
def scanning (line : Nat) (fly : Bool) : State :=
  { withRegs (fresh .gen1) scanRegs 0 with vline := line, flyback := fly, dueVideo := some (64 / 1000000) }

/-- An outcome's next state. -/
def nextOf : Outcome State Fault Refusal → Option State
  | .next s => some s
  | .fault _ => none
  | .refused _ => none

/-- What the instruction leaves, seen through a projection. -/
def seen {α : Type} (i : Instr) (s : State) (f : State → α) : Option α := (nextOf (exec i s)).map f

/-- What a register write leaves, seen through a projection. -/
def wrote {α : Type} (s : State) (a x : Word) (f : State → α) : Option α := seen (decodeWrite s.cfg.variant a x) s f

/-- Where an ended run ends: its time, its scanline and its video timer. -/
def endOf : RunStatus → Option (Time × Nat × Option Time)
  | .ended s => some (s.now, s.vline, s.dueVideo)
  | .running _ => none
  | .stopped _ => none
  | .refused _ => none

/-! ### Well-formedness: each check refuses an ill-formed term -/

theorem test_wf_surface : Instr.wf .gen1 (.render ⟨2, 2, [0, 0, 0]⟩ ⟨0, 0, 2, 2⟩) = false := by decide
theorem test_wf_pal8 : Instr.wf .gen1 (.pal8 0) = false ∧ Instr.wf .gen1Lcd (.pal8 0) = false := by decide
theorem test_wf_palidx : Instr.wf .gen1 (.palidx 0) = false ∧ Instr.wf .gen1Lcd (.palidx 0) = false := by decide
theorem test_wf_holeGen1 : Instr.wf .gen2 (.holeGen1 0) = false := by decide
theorem test_wf_config_vram : ({ defaultConfig .gen1 with vramBits := 22 } : Config).wf = false := by decide +kernel
theorem test_wf_config_cram : ({ defaultConfig .gen1 with cramBits := 16 } : Config).wf = false := by decide +kernel
theorem test_wf_config_bppSet : ({ defaultConfig .gen1 with bppSet := [] } : Config).wf = false := by decide +kernel
theorem test_wf_config_pixclk :
    ({ defaultConfig .gen1 with pixclk := [⟨.b1, 0, 1⟩, ⟨.b1, 0, 2⟩] } : Config).wf = false := by decide +kernel
theorem test_wf_config_crtcBits : ({ defaultConfig .gen1 with crtcBits := 33 } : Config).wf = false := by decide +kernel
theorem test_wf_config_mainMap :
    ({ defaultConfig .gen1 with mainMap := tableOf 256 id } : Config).wf = false := by decide +kernel
theorem test_wf_defaults :
    (defaultConfig .gen1).wf = true ∧ (defaultConfig .gen1Lcd).wf = true ∧ (defaultConfig .gen2).wf = true := by
  decide +kernel
theorem test_wf_memory : ¬ Memory.wf [(3, 1), (2, 1)] ∧ ¬ Memory.wf [(3, 0)] ∧ Memory.wf [(2, 1), (3, 1)] := by decide

/-! ### Decoding: words written out from R50 to R53 -/

/-- 0x3C is 0b0011_1100 (R52: A in 0x00 to 0x3C, i = A[5:2]); V40.8. -/
theorem test_decode_palette :
    decodeWrite .gen1 0b00111100#32 7#32 = .palMain 15#4 7#32 ∧ decodeWrite .gen2 0x100#32 0xF#32 = .palMain 0#4 0xF#32 ∧
    decodeWrite .gen1 0b01000000#32 1#32 = .border 1#32 ∧ decodeWrite .gen1 0b01000100#32 2#32 = .curpal1 2#32 ∧
    decodeWrite .gen1 0b01001000#32 3#32 = .curpal2 3#32 ∧ decodeWrite .gen1 0b01001100#32 4#32 = .curpal3 4#32 := by decide

/-- R53, V40.5 to V40.7: the variant delta and the holes. -/
theorem test_decode_delta_and_holes :
    decodeWrite .gen2 0b01010000#32 5#32 = .pal8 5#32 ∧ decodeWrite .gen2 0b01010100#32 6#32 = .palidx 6#32 ∧
    decodeWrite .gen1 0b01010000#32 5#32 = .holeGen1 5#32 ∧ decodeWrite .gen1Lcd 0b01010100#32 6#32 = .holeGen1 6#32 ∧
    decodeWrite .gen2 0b01011000#32 7#32 = .hole 7#32 ∧ decodeWrite .gen1 0b01011100#32 7#32 = .hole 7#32 := by decide

/-- R52: the horizontal CRTC slots; V40.2. -/
theorem test_decode_crtc_horizontal :
    decodeWrite .gen1 0b10000000#32 1#32 = .crtcHcr 1#32 ∧ decodeWrite .gen1 0b10000111#32 3#32 = .crtcHswr 3#32 ∧
    decodeWrite .gen1 0b10001000#32 1#32 = .crtcHbsr 1#32 ∧ decodeWrite .gen1 0b10001100#32 1#32 = .crtcHber 1#32 ∧
    decodeWrite .gen1 0b10010000#32 1#32 = .crtcHdsr 1#32 ∧ decodeWrite .gen1 0b10010100#32 1#32 = .crtcHder 1#32 ∧
    decodeWrite .gen1 0b10011000#32 1#32 = .crtcHcsr 1#32 ∧ decodeWrite .gen1 0b10011100#32 1#32 = .crtcHcer 1#32 := by
  decide

/-- R52: the vertical CRTC slots. -/
theorem test_decode_crtc_vertical :
    decodeWrite .gen1 0b10100000#32 1#32 = .crtcVcr 1#32 ∧ decodeWrite .gen1 0b10100100#32 1#32 = .crtcVswr 1#32 ∧
    decodeWrite .gen1 0b10101000#32 1#32 = .crtcVbsr 1#32 ∧ decodeWrite .gen1 0b10101100#32 1#32 = .crtcVber 1#32 ∧
    decodeWrite .gen1 0b10110000#32 1#32 = .crtcVdsr 1#32 ∧ decodeWrite .gen1 0b10110100#32 1#32 = .crtcVder 1#32 ∧
    decodeWrite .gen1 0b10111000#32 1#32 = .crtcVcsr 1#32 ∧ decodeWrite .gen1 0b10111111#32 1#32 = .crtcVcer 1#32 := by
  decide

/-- R52: stereo 0x60 to 0x7C, sound frequency 0xC0 to 0xDC, control 0xE0 to 0xFC; V40.3, V40.4. -/
theorem test_decode_sound_and_control :
    decodeWrite .gen1 0b01100000#32 1#32 = .stereo 0#3 1#32 ∧ decodeWrite .gen1 0b01111100#32 1#32 = .stereo 7#3 1#32 ∧
    decodeWrite .gen1 0b11000000#32 10#32 = .sfr 10#32 ∧ decodeWrite .gen1 0b11011100#32 20#32 = .sfr 20#32 ∧
    decodeWrite .gen1 0b11100000#32 8#32 = .ctrl 8#32 ∧ decodeWrite .gen1 0b11111100#32 8#32 = .ctrl 8#32 := by decide

/-- R51, R11, R129: the calls of format PORT and the two timer handlers. -/
theorem test_decode_port :
    decodeCall .gen1 (.writeVram 1 2) = .writeVram 1 2 ∧ decodeCall .gen1 (.writeCram 3 4) = .writeCram 3 4 ∧
    decodeCall .gen1 (.writeDac 5 6) = .writeDac 5 6 ∧ decodeCall .gen1 (.clearDac 7) = .clearDac 7 ∧
    decodeCall .gen1 (.dacLevel 8) = .dacLevel 8 ∧ decodeCall .gen1 .flybackR = .flybackR ∧
    decodeCall .gen1 (.render ⟨0, 0, []⟩ ⟨0, 0, 1, 1⟩) = .render ⟨0, 0, []⟩ ⟨0, 0, 1, 1⟩ ∧
    decodeCall .gen1 .reset = .reset ∧ dispatchTimer .video = .videoFire ∧ dispatchTimer .sound = .soundFire := by decide

/-- The byte frame (log 9): seven bytes are rejected by name, nine leave the ninth. -/
theorem test_decode_bytes :
    decodeBytes .gen1 [0xC0, 0, 0, 0, 10, 0, 0] = .rejected .truncated ∧
    decodeBytes .gen1 [0xC0, 0, 0, 0, 10, 1, 0, 0, 0x77] = .instr (.sfr 0x10A#32) [0x77] := by decide

/-- Table words: bits [31:0] address, [63:32] value, none for a row of no bits. -/
theorem test_decode_table_word :
    decodeTableWord 64 0x0000000F00000014 = some (.palMain 5#4 0xF#32) ∧ decodeTableWord 8 0xC0 = some (.sfr 0#32) ∧
    decodeTableWord 64 0x000000FF00000050 = some (.pal8 0xFF#32) ∧ decodeTableWord 0 0 = none := by decide +kernel

/-- The first step after `withFetchWord` runs the write (log 5): 0xC0 is SFR, value 10 (R52, R59). -/
theorem test_withFetchWord :
    (nextOf (step (State.reset.withFetchWord 64 0x0000000A000000C0))).map (·.sfr) = some 10 := by decide +kernel

/-! ### Palette (95_test_vectors.md 2.2 and 2.4) -/

/-- V42.6. -/
theorem test_palMain :
    wrote (fresh .gen1) 0x14 0x00F (fun s => (s.pal[5]?, toPixel .gen1 (s.palRead 5))) =
      some (some ⟨255, 0, 0⟩, 0xFFFF0000#32) := by decide +kernel
/-- V42.3: bit 12 is discarded. -/
theorem test_palMain_supremacy : wrote (fresh .gen1) 0x00 0x1234 (·.pal[0]?) = some (some ⟨68, 51, 34⟩) := by decide +kernel
/-- V42.7. -/
theorem test_border : wrote (fresh .gen1) 0x40 0x0F0 (·.pal[16]?) = some (some ⟨0, 255, 0⟩) := by decide +kernel
/-- R103: cursor colour 1 is entry 17, and 257 on GEN2 (program 4). -/
theorem test_curpal1 : wrote (fresh .gen2) 0x44 0xF0F (·.pal[257]?) = some (some ⟨255, 0, 255⟩) := by decide +kernel
/-- V42.8. -/
theorem test_curpal2 : wrote (fresh .gen1) 0x48 0xFFF (·.pal[18]?) = some (some ⟨255, 255, 255⟩) := by decide +kernel
/-- V42.9. -/
theorem test_curpal3 : wrote (fresh .gen2) 0x4C 0xF00 (·.pal[259]?) = some (some ⟨0, 0, 255⟩) := by decide +kernel
/-- V42.11: the latch wraps before the border entry. -/
theorem test_pal8_wraps :
    wrote { fresh .gen2 with palidx := 255 } 0x50 0x123456 (fun s => (s.pal[255]?, s.palidx, s.pal[256]?)) =
      some (some ⟨0x56, 0x34, 0x12⟩, 0, some ⟨0, 0, 0⟩) := by decide +kernel
/-- V30.8. -/
theorem test_pal8_masks :
    wrote (fresh .gen2) 0x50 0xAB123456 (fun s => (s.pal[0]?, s.palidx)) = some (some ⟨0x56, 0x34, 0x12⟩, 1) := by
  decide +kernel
/-- V30.7. -/
theorem test_palidx : wrote (fresh .gen2) 0x54 0x105 (·.palidx) = some 5 := by decide +kernel
/-- V40.5, V40.7. -/
theorem test_holeGen1 : exec (.holeGen1 0xFFFFFF) (fresh .gen1Lcd) = .next (fresh .gen1Lcd) := rfl
/-- V40.6. -/
theorem test_hole : exec (.hole 7) (fresh .gen2) = .next (fresh .gen2) := rfl

/-! ### CRTC and control (2.2, 2.3) -/

/-- V30.4. -/
theorem test_hcr_masks : wrote (fresh .gen1) 0x80 0x10200 (·.crtc.hcr) = some 0x200#32 := by decide +kernel
/-- V41.1. -/
theorem test_hcr : wrote (fresh .gen1) 0x80 512 (fun s => (s.geo.ht, s.history.length)) = some (512, 1) := by decide +kernel
/-- V40.1. -/
theorem test_hswr : wrote (fresh .gen1) 0x10000084 0xFFFF0040 (fun s => (s.crtc.hswr, s.geo.hsw)) = some (0x40, 0x40) := by
  decide +kernel
/-- V41.2: 2 bpp, the start in conversion-factor units. -/
theorem test_hbsr : wrote (withRegs (fresh .gen1) Crtc.zero 4) 0x88 50 (·.geo.hbs) = some 100 := by decide +kernel
/-- V41.2. -/
theorem test_hber :
    wrote (withRegs (fresh .gen1) { Crtc.zero with hbsr := 50 } 4) 0x8C 370 (fun s => (s.geo.hbe, s.geo.bordW)) =
      some (740, 640) := by decide +kernel
/-- V41.3: 4 bpp. -/
theorem test_hdsr : wrote (withRegs (fresh .gen1) Crtc.zero 8) 0x90 10 (·.geo.hds) = some 40 := by decide +kernel
/-- V41.6: the width is signed, not clamped. -/
theorem test_hder :
    wrote (withRegs (fresh .gen1) { Crtc.zero with hdsr := 100 } 0) 0x94 50 (·.geo.dispW) = some (-50) := by decide +kernel
/-- V41.17: cursor columns, no event. -/
theorem test_hcsr :
    wrote (fresh .gen1) 0x98 100 (fun s => (s.cursorColumns, s.history)) = some (⟨100, 132⟩, []) := by decide +kernel
/-- V41.18. -/
theorem test_hcer :
    wrote (withRegs (fresh .gen1) { Crtc.zero with hcsr := 25 } 8) 0x9C 5
      (fun s => (s.crtc.hcer, s.cursorColumns, s.history)) = some (5, ⟨100, 132⟩, []) := by decide +kernel
/-- V41.14: a shorter frame folds the line and restarts the timer. -/
theorem test_vcr :
    wrote (scanning 300 true) 0xA0 200 (fun s => (s.vline, s.dueVideo, s.history.length)) =
      some (100, some (64 / 1000000), 1) := by decide +kernel
/-- V41.15: an invalid geometry stops it. -/
theorem test_vcr_zero :
    wrote (scanning 300 true) 0xA0 0 (fun s => (s.vline, s.dueVideo, s.geo.valid, s.history.length)) =
      some (0, none, false, 1) := by decide +kernel
/-- R89: stored, not scaled. -/
theorem test_vswr : wrote (withRegs (fresh .gen1) Crtc.zero 12) 0xA4 3 (·.geo.vsw) = some 3 := by decide +kernel
/-- V41.5. -/
theorem test_vbsr : wrote (withRegs (fresh .gen1) Crtc.zero 12) 0xA8 19 (·.geo.vbs) = some 19 := by decide +kernel
/-- V41.5. -/
theorem test_vber :
    wrote (withRegs (fresh .gen1) { Crtc.zero with vbsr := 19 } 8) 0xAC 291 (·.geo.bordH) = some 272 := by decide +kernel
/-- V41.12. -/
theorem test_vdsr :
    wrote { withRegs (fresh .gen1) { Crtc.zero with hcr := 512, vcr := 312 } 0 with now := 7, vline := 100 } 0xB0 16
      (fun s => (s.geo.vds, s.vline, s.dueVideo, s.history.length)) =
      some (16, 100, some (7 + 64 / 1000000), 1) := by decide +kernel
/-- V41.13: the same write again does nothing. -/
theorem test_vdsr_again : seen (.crtcVdsr 16) (scanning 100 false) id = some (scanning 100 false) := by decide +kernel
/-- V41.5. -/
theorem test_vder :
    wrote (withRegs (fresh .gen1) { Crtc.zero with vdsr := 16 } 0) 0xB4 272 (·.geo.dispH) = some 256 := by decide +kernel
/-- V41.16, first write: no event. -/
theorem test_vcsr : wrote (fresh .gen1) 0xB8 100 (fun s => (s.crtc.vcsr, s.history)) = some (100, []) := by decide +kernel
/-- V41.16: enabled, 256 bytes, no event. -/
theorem test_vcer :
    wrote (withRegs (fresh .gen1) { Crtc.zero with vcsr := 100 } 0) 0xBC 132
      (fun s => (cursorEnable s.crtc, s.cursorSize, s.history)) = some (true, 256, []) := by decide +kernel
/-- V30.1, V30.2. -/
theorem test_ctrl_masks :
    wrote (fresh .gen1) 0xE0 0xFFFFFFFF (·.ctrl) = some 0x04F#32 ∧
    wrote (fresh .gen2) 0xE0 0xFFFFFFFF (·.ctrl) = some 0x14F#32 := by decide +kernel
/-- V41.20, V41.21: the sound timer restarts on GEN2 only. -/
theorem test_ctrl_sound :
    wrote { fresh .gen2 with sfr := 10, dueSound := some (3 / 1000000) } 0xE0 0 (fun s => (s.dueSound, s.history)) =
      some (some (10 / 1000000), []) ∧
    wrote { fresh .gen1 with sfr := 10, dueSound := some (3 / 1000000) } 0xE0 8 (·.dueSound) =
      some (some (3 / 1000000)) := by decide +kernel
/-- V41.10: 4 bpp at 24 MHz. -/
theorem test_geometry_clock :
    (geometry (defaultConfig .gen1) { Crtc.zero with hcr := 200, vcr := 1 } 0x0B).tLine = some (100 / 3 / 1000000) := by
  decide +kernel
/-- V41.22 to V41.25: the fallbacks with replaced parameters. -/
theorem test_fallbacks :
    effectiveBpp { defaultConfig .gen1 with bppSet := [.b4, .b8] } 0 = .b4 ∧
    effectiveBpp { defaultConfig .gen1 with bppSet := [.b1, .b4] } 4 = .b1 ∧
    pixelClock { defaultConfig .gen1 with pixclk := [⟨.b1, 0, 5⟩, ⟨.b1, 1, 6⟩] } .b1 3 = 6 ∧
    (geometry { defaultConfig .gen1 with hconv := tableOf 4 (fun n => 8 / 2 ^ n) } { Crtc.zero with hcr := 64 } 0).ht = 512 := by
  decide +kernel

/-! ### Compositor (2.5) -/

/-- V43.1, V43.2. -/
theorem test_writeVram :
    seen (.writeVram 0x200000 0xAB) (fresh .gen1) (·.vram) = some [(0, 0xAB)] ∧
    seen (.writeVram 0x200001 0x1CD) (fresh .gen1) (·.vram) = some [(1, 0xCD)] := by decide +kernel
/-- V60.2. -/
theorem test_writeVram_huge : seen (.writeVram (2 ^ 64) 1) (fresh .gen1) (·.vram) = some [(0, 1)] := by decide +kernel
/-- V43.3. -/
theorem test_writeCram :
    seen (.writeCram 0x8000 0x40) (fresh .gen1) (·.cram) = some [(0, 0x40)] ∧
    seen (.writeCram 0x8001 1) (fresh .gen1) (·.cram) = some [(1, 1)] := by decide +kernel
/-- V43.4 to V43.8. -/
theorem test_unpack :
    (List.range 8).map (fun p => State.unpackVram { fresh .gen1 with vram := [(0, 0xB4)] } p 1) = [1, 0, 1, 1, 0, 1, 0, 0] ∧
    (List.range 4).map (fun p => State.unpackVram { fresh .gen1 with vram := [(0, 0xB4)] } p 2) = [2, 3, 1, 0] ∧
    State.unpackVram { fresh .gen1 with vram := [(0, 0xB4)] } 1 4 = 4 ∧
    State.unpackVram { fresh .gen1 with vram := [(0, 0xB4)] } 0 8 = 0xB4 ∧
    State.unpackVram { fresh .gen1 with vram := [(0x1FFFFF, 0x0F)] } (2 ^ 22 - 1) 4 = 0xF := by decide +kernel

/-- A GEN1 device at 4 bpp with a cursor on row 0 over a display window of columns 0 to 639, colours as in V43.10 to V43.16. -/
def composed : State :=
  { withRegs (fresh .gen1) { Crtc.zero with hcr := 200, vcr := 1, hder := 160, vder := 1, vcer := 1 } 8 with
    cram := [(0, 0x1B)]
    vram := [(0, 0x50)]
    pal := [⟨0, 0, 0⟩, ⟨0, 0, 0⟩, ⟨0, 0, 0⟩, ⟨0, 0, 0⟩, ⟨0, 0, 0⟩, ⟨255, 0, 0⟩] ++ List.replicate 10 ⟨0, 0, 0⟩ ++
      [⟨0, 255, 0⟩, ⟨255, 0, 255⟩, ⟨0, 0, 0⟩, ⟨0, 0, 0⟩] }

/-- V43.10 to V43.12, V43.16: cursor index 0 shows the image, another its own colour, and outside is the border. -/
theorem test_pixel :
    (List.range 5).map (fun x => composed.cursorIndex x 0) = [0, 1, 2, 3, 0] ∧
    composed.pixel 0 0 = 0xFFFF0000#32 ∧ composed.pixel 1 0 = 0xFFFF00FF#32 ∧ composed.pixel 700 0 = 0xFF00FF00#32 ∧
    composed.pixel 0 5 = 0xFF00FF00#32 := by decide +kernel
/-- V43.17: only the clip's pixels are redrawn. -/
theorem test_render_clip :
    seen (.render ⟨4, 4, List.replicate 16 9⟩ ⟨2, 2, 10, 10⟩) (fresh .gen1) (·.replies) =
      some [.surface ⟨4, 4, List.replicate 10 9 ++ [0xFF000000, 0xFF000000, 9, 9, 0xFF000000, 0xFF000000]⟩] := by
  decide +kernel
/-- V43.18: a clip left of the surface draws nothing. -/
theorem test_render_nothing :
    seen (.render ⟨2, 1, [9, 9]⟩ ⟨-5, 0, 5, 1⟩) (fresh .gen1) (·.replies) = some [.surface ⟨2, 1, [9, 9]⟩] := by decide +kernel

/-! ### Audio (2.6) -/

/-- V44.1 to V44.9. -/
theorem test_lut :
    [0x00#8, 0x01#8, 0x02#8, 0x03#8, 0x1E#8, 0x20#8, 0x21#8, 0x3E#8, 0x40#8, 0x80#8, 0xFE#8, 0xFF#8].map
      (fun x => (lutRead (defaultConfig .gen1) x).toInt) =
      [0, 0, 8, -8, 120, 128, -128, 368, 384, 1920, 31616, -31616] := by decide +kernel
/-- V30.5: channel 1, pan 1, gains (2, 0). -/
theorem test_stereo :
    wrote (fresh .gen1) 0x64 9 (fun s => ((s.dacRead 1).pan, (s.dacRead 1).gainL, (s.dacRead 1).gainR)) =
      some (1, 2, 0) := by decide +kernel
/-- V44.16, V44.17. -/
theorem test_sfr :
    wrote (fresh .gen1) 0xC0 10 (·.dueSound) = some (some (80 / 1000000)) ∧
    wrote (fresh .gen2) 0xC0 10 (·.dueSound) = some (some (10 / 1000000)) := by decide +kernel
/-- V30.6, V44.19. -/
theorem test_sfr_masks :
    wrote (fresh .gen1) 0xC0 0x10A (·.sfr) = some 10 ∧
    wrote { fresh .gen1 with sfr := 10, dueSound := some (80 / 1000000) } 0xC0 0 (·.dueSound) = some none := by decide +kernel
/-- V44.20: channel 10 is 2, sample 0x1FE is 0xFE. -/
theorem test_writeDac : seen (.writeDac 10 0x1FE) (fresh .gen1) (fun s => (s.dacRead 2).sample.toInt) = some 31616 := by
  decide +kernel
/-- V44.12: exact thirds. -/
theorem test_writeDac_exact :
    seen (.writeDac 2 0x20) { fresh .gen1 with dac := (fresh .gen1).dac.set 2 ⟨2, 5 / 3, 1 / 3, 0, 0, 0, false⟩ }
      (fun s => ((s.dacRead 2).outL, (s.dacRead 2).outR, (s.dacRead 2).active)) = some (640 / 3, 128 / 3, true) := by
  decide +kernel
/-- V44.15: channel 9 is 1; the pan stays. -/
theorem test_clearDac :
    seen (.clearDac 9) { fresh .gen1 with dac := (fresh .gen1).dac.set 1 ⟨7, 0, 2, 31616, 0, 63232, true⟩ }
      (fun s => s.dacRead 1) = some ⟨7, 0, 2, 0, 0, 0, false⟩ := by decide +kernel
/-- V44.11, the read. -/
theorem test_dacLevel :
    seen (.dacLevel 1) { fresh .gen1 with dac := (fresh .gen1).dac.set 1 ⟨1, 2, 0, 31616, 63232, 0, true⟩ } (·.replies) =
      some [.level 63232 0] := by decide +kernel

/-! ### Scheduler and reset (2.7, 2.8) -/

/-- V45.11. -/
theorem test_flybackR : seen .flybackR (scanning 280 true) (·.replies) = some [.flyback true] := by decide +kernel
/-- V45.1. -/
theorem test_videoFire :
    seen .videoFire { scanning 271 false with now := 64 / 1000000 } (fun s => (s.vline, s.flyback, s.dueVideo, s.history)) =
      some (272, true, some (128 / 1000000), [(64 / 1000000, .vblankEdge true)]) := by decide +kernel
/-- V45.3. -/
theorem test_videoFire_wraps :
    seen .videoFire (scanning 311 true) (fun s => (s.vline, s.flyback, s.history)) = some (0, true, []) := by decide +kernel
/-- V45.7. -/
theorem test_soundFire :
    seen .soundFire { fresh .gen1 with sfr := 10, now := 80 / 1000000 } (fun s => (s.dueSound, s.history)) =
      some (some (160 / 1000000), [(80 / 1000000, .soundDrq)]) := by decide +kernel
/-- V45.8: with fires due at 64 and 80 us, a host call at 100 us waits, and the video fire is first. -/
theorem test_step_order :
    (nextOf (stepWith 0 { scanning 0 true with dueSound := some (80 / 1000000), program := [⟨1 / 10000, .flybackR⟩] })).map
      (fun s => (s.now, s.vline, s.replies)) = some (64 / 1000000, 1, []) := by decide +kernel
/-- R128, R125 (a): the fire due at 64 us comes before the call at 100 us, and the run ends with the call, however many steps it is given. -/
theorem test_run_ends_with_its_call :
    endOf (runProgram (fun _ => 0) 9 { scanning 0 true with program := [⟨1 / 10000, .flybackR⟩] }) =
      some (1 / 10000, 1, some (128 / 1000000)) ∧
    endOf (runProgram (fun _ => 0) 1 { scanning 0 true with program := [⟨1 / 10000, .flybackR⟩] }) = none := by decide +kernel
/-- V45.9: with both fires due at 64 us, either is first. -/
theorem test_step_tie :
    (nextOf (stepWith 0 { scanning 0 true with dueSound := some (64 / 1000000) })).map (·.vline) = some 1 ∧
    (nextOf (stepWith 1 { scanning 0 true with dueSound := some (64 / 1000000) })).map (·.history) =
      some [(64 / 1000000, .soundDrq)] := by decide +kernel
/-- A device with a sound timer pending and a past, before a reset. -/
def beforeReset : State := { composed with now := 3, history := [(1, .soundDrq)], sfr := 10, dueSound := some 4 }

/-- V70.1: reset empties the registers and the palette and stops the timers. -/
theorem test_reset_clears :
    seen .reset beforeReset (fun s => (s.crtc, s.ctrl, s.sfr, s.dueSound)) = some (Crtc.zero, 0, 0, none) ∧
    seen .reset beforeReset (·.pal[5]?) = some (some ⟨0, 0, 0⟩) := by decide +kernel
/-- V70.1: reset keeps the buffers, the time and the history. -/
theorem test_reset_keeps :
    seen .reset beforeReset (fun s => (s.vram, s.now)) = some ([(0, 0x50)], 3) ∧
    seen .reset beforeReset (·.history) = some [(1, .soundDrq)] := by decide +kernel

/-! ### States and operands that meet the obligations' hypotheses -/

/-- AddressMapDecodesEveryWord, HoleWritesChangeNothing: an address for each end of each range of words. -/
theorem witness_word_numbers :
    [0x00#32, 0x3C#32, 0x40#32, 0x44#32, 0x48#32, 0x4C#32, 0x50#32, 0x54#32, 0x58#32, 0x5C#32, 0x60#32, 0x7C#32, 0x80#32,
      0xBC#32, 0xC0#32, 0xDC#32, 0xE0#32, 0xFC#32, 0xFFFFFFFF#32].map wordNumber =
      [0, 15, 16, 17, 18, 19, 20, 21, 22, 23, 24, 31, 32, 47, 48, 55, 56, 63, 63] := by decide

/-- DecodeOfEncodeIsTheInstruction, FrameOfAWriteDecodesToIt: well-formed instructions of each variant's own, the calls and bytes
that encode them, and an instruction without a call. -/
theorem witness_encodings :
    Instr.wf .gen2 (.pal8 1#32) = true ∧ encode (.pal8 1#32) = some (.write 0x50#32 1#32) ∧
    Instr.wf .gen1 (.holeGen1 1#32) = true ∧ encodeBytes (.holeGen1 1#32) = some [0x50, 0, 0, 0, 1, 0, 0, 0] ∧
    Instr.wf .gen1 .videoFire = true ∧ encode .videoFire = none ∧ ([] : List Byte).length < 8 := by decide

/-- EveryCallIsAnInstructionOfTheVariant: a render call of a well-formed surface. -/
theorem witness_call : ∀ sf clip, (Call.render ⟨1, 1, [0]⟩ ⟨0, 0, 1, 1⟩) = .render sf clip → sf.wf = true := by
  rintro sf clip ⟨⟩
  decide

/-- A state with an enabled host call at 10 us, both timers later. -/
def hostReady : State :=
  { scanning 0 true with program := [⟨10 / 1000000, .flybackR⟩], sfr := 10, dueSound := some (80 / 1000000) }

/-- StepRunsTheDecodedCall, LoadedWriteRunsNext, EveryOrderOfEqualTimesIsAdmitted (host clause), DutyOffDueTimes. -/
theorem witness_host_call :
    hostReady.program = [⟨10 / 1000000, .flybackR⟩] ∧ hostReady.now ≤ 10 / 1000000 ∧ NoneDueBy hostReady (10 / 1000000) ∧
    NoneDueBefore hostReady (10 / 1000000) ∧ NoneDueBy hostReady hostReady.now := by
  refine ⟨rfl, by decide +kernel, ⟨?_, ?_⟩, ⟨?_, ?_⟩, ⟨?_, ?_⟩⟩ <;> rintro d ⟨⟩ <;> decide +kernel

/-- StepFiresTheTimerThatIsDue: the video timer before a host call to come, and the sound timer past an overdue one. -/
theorem witness_timer_due :
    (∃ s : State, s.due .video = some (64 / 1000000) ∧ (∀ j e, j ≠ .video → s.due j = some e → 64 / 1000000 < e) ∧
      ∃ h, s.program = [h] ∧ 64 / 1000000 < h.time) ∧
    (∃ s : State, s.due .sound = some (80 / 1000000) ∧ (∀ j e, j ≠ .sound → s.due j = some e → 80 / 1000000 < e) ∧
      ∃ h, s.program = [h] ∧ h.time < s.now) := by
  refine ⟨⟨{ scanning 0 true with dueSound := some 1, program := [⟨1, .reset⟩] }, rfl, ?_, _, rfl, by decide +kernel⟩,
    ⟨{ scanning 0 true with dueVideo := some 1, dueSound := some (80 / 1000000), now := 5, program := [⟨1, .reset⟩] }, rfl, ?_, _,
      rfl, by decide +kernel⟩⟩
  · rintro (_ | _) e hj ⟨⟩
    · exact absurd rfl hj
    · decide +kernel
  · rintro (_ | _) e hj ⟨⟩
    · decide +kernel
    · exact absurd rfl hj

/-- EveryOrderOfEqualTimesIsAdmitted: a fire and a host call at one time (V45.10). -/
theorem witness_equal_times :
    ∃ s : State, s.due .video = some (64 / 1000000) ∧ NoneDueBefore s (64 / 1000000) ∧
      ∃ h, s.program = [h] ∧ s.now ≤ h.time ∧ h.time = 64 / 1000000 := by
  refine ⟨{ scanning 0 true with program := [⟨64 / 1000000, .flybackR⟩] }, rfl, ⟨?_, ?_⟩, _, rfl, by decide +kernel, rfl⟩
  · rintro d ⟨⟩
    decide +kernel
  · rintro d ⟨⟩

/-- StepStopsOnlyWhereNoStepIsEnabled: no call and no timer, and an overdue call and no timer. -/
theorem witness_stops :
    ((fresh .gen1).program = [] ∧ (fresh .gen1).dueVideo = none ∧ (fresh .gen1).dueSound = none) ∧
    ∃ (s : State) (h : HostStep), s.program = [h] ∧ h.time < s.now ∧ s.dueVideo = none ∧ s.dueSound = none :=
  ⟨⟨rfl, rfl, rfl⟩, { fresh .gen1 with now := 1, program := [⟨0, .reset⟩] }, _, rfl, by decide +kernel, rfl, rfl⟩

/-- An outcome that `nextOf` sees is a next state. -/
theorem exists_next {o : Outcome State Fault Refusal} (h : (nextOf o).isSome = true) : ∃ t, o = .next t := by
  cases o with
  | next t => exact ⟨t, rfl⟩
  | fault r => simp [nextOf] at h
  | refused r => simp [nextOf] at h

/-- The invariant holds of `hostReady`. -/
theorem hostReady_inv : Inv hostReady := by
  refine ⟨by decide +kernel, ?_, by decide +kernel, by decide +kernel, by decide, ?_, by decide, ?_, by decide +kernel, by decide +kernel,
    rfl, fun _ => by decide +kernel, ⟨?_, ?_⟩, fun _ => by decide +kernel, fun _ => by decide +kernel⟩
  · intro k
    cases k <;> decide +kernel
  · exact fun c hc => absurd hc (List.not_mem_nil)
  · exact fun c hc => absurd hc (List.not_mem_nil)
  · rintro d ⟨⟩
    decide +kernel
  · rintro d ⟨⟩
    decide +kernel

/-- EveryStepKeepsTheInvariant, TimeNeverDecreases and the other statements about a step: a state with the invariant that steps. -/
theorem witness_invariant_step : Inv hostReady ∧ ∃ t, stepWith 0 hostReady = .next t :=
  ⟨hostReady_inv, exists_next (by decide +kernel)⟩

/-- A run with calls to come that has ended was not over at once. -/
theorem exists_ended {r : RunStatus} (h : (endOf r).isSome = true) : ∃ t, r = .ended t := by
  cases r with
  | ended t => exact ⟨t, rfl⟩
  | running t => simp [endOf] at h
  | stopped f => simp [endOf] at h
  | refused f => simp [endOf] at h

/-- `hostReady` has a program that can be run. -/
theorem hostReady_ready : ProgramReady hostReady := by
  refine ⟨List.pairwise_singleton _ _, ?_⟩
  intro h hh
  obtain rfl : h = ⟨10 / 1000000, .flybackR⟩ := by simpa [hostReady] using hh
  decide +kernel

/-- A program without calls is apart from every timer. -/
theorem timesApart_of_nil {f : Nat → Nat} {s : State} (hs : s.program = []) (k : Nat) : TimesApart f k s := by
  cases k with
  | zero => trivial
  | succ k => intro h rest hp; rw [hs] at hp; cases hp

/-- TieFreeRunsAgree: a state that meets R128's two conditions at every step of its run, and a run of its program. -/
theorem witness_times_apart :
    Inv hostReady ∧ ProgramReady hostReady ∧ (∀ k, TimesApart (fun _ => 0) k hostReady) ∧
    ∃ t, ProgramRun hostReady t := by
  refine ⟨hostReady_inv, hostReady_ready, ?_, ?_⟩
  · intro k
    cases k with
    | zero => trivial
    | succ k =>
      rintro h rest ⟨⟩
      refine ⟨⟨by decide +kernel, by decide +kernel⟩, ?_, ?_⟩
      · rintro d ⟨⟩ h
        revert h
        decide +kernel
      · intro t ht
        refine timesApart_of_nil ?_ k
        have hc : hostReady.candidates = [.host] := by decide +kernel
        rw [stepWith_of_single hc, takeStep_host (s := hostReady) rfl] at ht
        exact (exec_sameFrame ht).program
  · refine ⟨_, .step hostReady _ _ .host (by simp [hostReady]) (.host ⟨10 / 1000000, .flybackR⟩ [] 0 _ rfl (by decide +kernel) ?_ rfl)
      (.ended _ rfl)⟩
    exact witness_host_call.2.2.2.1

/-- RunsEndWithTheLastCall, RunsAreTheRunsOfTheRelation: a program that is run to its end, and a state with none left. -/
theorem witness_run_ends :
    (∃ t, runProgram (fun _ => 0) 1 hostReady = .ended t) ∧ hostReady.program.getLast? = some ⟨10 / 1000000, .flybackR⟩ ∧
    (fresh .gen1).program = [] ∧ runProgram (fun _ => 0) 1 (fresh .gen1) = .ended (fresh .gen1) :=
  ⟨exists_ended (by decide +kernel), rfl, rfl, rfl⟩

/-- InvariantHoldsAtConstruction: a well-formed configuration and buffers that list a byte. -/
theorem witness_construction :
    (defaultConfig .gen1Lcd).wf = true ∧ Memory.wf [(0x1FFFFF, 1)] ∧ Memory.within [(0x1FFFFF, 1)] 21 ∧
    Memory.wf [(0x7FFF, 1)] ∧ Memory.within [(0x7FFF, 1)] 15 := by decide +kernel

/-- RegistersChangeOnlyByTheirWrites: each register changes under its own write. -/
theorem witness_register_changes :
    seen (.crtcHcr 5) (fresh .gen2) (·.crtc.hcr) ≠ some (fresh .gen2).crtc.hcr ∧
    seen (.ctrl 1) (fresh .gen2) (·.ctrl) ≠ some (fresh .gen2).ctrl ∧
    seen (.sfr 1) (fresh .gen2) (·.sfr) ≠ some (fresh .gen2).sfr ∧
    seen (.palidx 1) (fresh .gen2) (·.palidx) ≠ some (fresh .gen2).palidx := by decide +kernel

/-- BuffersPaletteAndChannelsChangeOnlyByTheirOwn: each changes under its own operation. -/
theorem witness_buffer_changes :
    seen (.writeVram 0 1) (fresh .gen2) (·.vram) ≠ some [] ∧ seen (.writeCram 0 1) (fresh .gen2) (·.cram) ≠ some [] ∧
    seen (.border 1) (fresh .gen2) (·.pal) ≠ some (fresh .gen2).pal ∧
    seen (.writeDac 0 0) (fresh .gen2) (·.dacRead 0) ≠ some ((fresh .gen2).dacRead 0) := by decide +kernel

/-- LineTimersAndEventsChangeOnlyByTheirOwn: each changes under one of its own. -/
theorem witness_line_changes :
    seen .videoFire (scanning 271 false) (·.flyback) = some true ∧ seen .videoFire (scanning 271 false) (·.vline) = some 272 ∧
    seen (.ctrl 4) (scanning 0 true) (·.geo) ≠ some (scanning 0 true).geo ∧
    seen (.sfr 1) (fresh .gen1) (·.dueSound) ≠ some none ∧ seen .soundFire (fresh .gen1) (·.history) ≠ some [] ∧
    seen .flybackR (fresh .gen1) (·.replies) ≠ some [] := by decide +kernel

/-- CrtcWriteStoresAndUpdatesTheGeometry, ControlWriteStoresAndUpdates: a write that changes the geometry to a valid one, one that changes
it to an invalid one, and one that does not change it; the period positive and zero. -/
theorem witness_geometry_clauses :
    geometry (defaultConfig .gen1) { scanRegs with vcr := 200 } 0 ≠ geometry (defaultConfig .gen1) scanRegs 0 ∧
    (geometry (defaultConfig .gen1) { scanRegs with vcr := 200 } 0).valid = true ∧
    geometry (defaultConfig .gen1) { scanRegs with vcr := 0 } 0 ≠ geometry (defaultConfig .gen1) scanRegs 0 ∧
    (geometry (defaultConfig .gen1) { scanRegs with vcr := 0 } 0).valid = false ∧
    geometry (defaultConfig .gen1) { scanRegs with vcer := 9 } 0 = geometry (defaultConfig .gen1) scanRegs 0 ∧
    0 < soundPeriod (defaultConfig .gen2) 1 ∧ ¬ 0 < soundPeriod (defaultConfig .gen2) 0 := by decide +kernel

/-- CursorSlotWritesOnlyStore: a state whose cached geometry is exact. -/
theorem witness_exact_geometry :
    (scanning 0 true).geo = geometry (scanning 0 true).cfg (scanning 0 true).crtc (scanning 0 true).ctrl ∧
    CrtcSlot.vcer ∈ [CrtcSlot.hcsr, .hcer, .vcsr, .vcer] := ⟨rfl, by decide⟩

/-- BitDepthFallsBackToTheNearest, PixelClockFallsBackToTheNearest, WriteOrderLeavesTheSameGeometry. -/
theorem witness_fallbacks :
    (defaultConfig .gen1).bppSet ≠ [] ∧ bppBits .b8 = 2 ^ ((0xC#32).toNat / 4 % 4) ∧ Bpp.b2 ∉ [Bpp.b1, Bpp.b4] ∧
    (defaultConfig .gen1).pixclk ≠ [] ∧ ((defaultConfig .gen1).pixclk.map fun e => (e.bpp, e.pcs)).Nodup ∧
    ⟨.b4, 2, 16000000⟩ ∈ (defaultConfig .gen1).pixclk ∧ CrtcSlot.hcr ≠ CrtcSlot.vcer := by decide +kernel

/-- SecondIdenticalWriteChangesNothing: one write of each kind it names. -/
theorem witness_second_write :
    crtcInstrOf .vcer 3 = .crtcVcer 3 ∧ Instr.curpal3 3 ∈ [Instr.border 3, .curpal1 3, .curpal2 3, .curpal3 3] ∧
    (fresh .gen1Lcd).cfg.variant ≠ .gen2 := ⟨rfl, by decide, by decide⟩

/-- The palette statements: the table is whole on each variant, and each write is one of the variant's. -/
theorem witness_palette :
    (fresh .gen1).pal.length = nPal (fresh .gen1).cfg.variant ∧ (fresh .gen2).pal.length = nPal (fresh .gen2).cfg.variant ∧
    (fresh .gen1Lcd).cfg.variant ≠ .gen2 ∧ (fresh .gen2).cfg.variant = .gen2 ∧ Instr.wf .gen2 (.pal8 0) = true ∧ Instr.wf .gen1 (.palMain 15 0) = true ∧
    (3, Instr.curpal3 0) ∈ [(0, Instr.border 0), (1, .curpal1 0), (2, .curpal2 0), (3, .curpal3 0)] := by decide +kernel

/-- PaletteWriteLandsInOneRegion: the first and last entry of each region (R25's table), and the entries beside them out of it. -/
theorem witness_regions :
    InRegion .gen1 0 .main ∧ InRegion .gen1 15 .main ∧ ¬ InRegion .gen1 16 .main ∧ InRegion .gen1 16 .border ∧
    InRegion .gen1 17 .cursor ∧ InRegion .gen1 19 .cursor ∧ ¬ InRegion .gen1 20 .cursor ∧ InRegion .gen2 255 .main ∧
    InRegion .gen2 256 .border ∧ InRegion .gen2 257 .cursor ∧ InRegion .gen2 259 .cursor := by
  simp [InRegion, mainBase, nMain, borderBase, cursorBase]

/-- VramWriteStoresOneByte, CramWriteStoresOneByte: canonical buffers, an offset that wraps onto the written one, one that does not. -/
theorem witness_buffers :
    Memory.wf composed.vram ∧ Memory.wf composed.cram ∧ (2 ^ 21 + 1) % 2 ^ composed.cfg.vramBits = 1 ∧
    2 % 2 ^ composed.cfg.vramBits ≠ 1 := by decide +kernel

/-- CursorIndexReadsItsTwoBits, PixelIsCursorThenImageThenBorder, CursorIndexZeroNeverObscures: each clause at the ends of its range. -/
theorem witness_cursor :
    ¬ (fresh .gen1).crtc.vcsr.toNat < (fresh .gen1).crtc.vcer.toNat ∧ composed.crtc.vcsr.toNat < composed.crtc.vcer.toNat ∧
    composed.hcs = 0 ∧ composed.cursorIndex 31 0 = 0 ∧ composed.cursorIndex 3 0 ≠ 0 ∧ composed.cursorIndex 32 0 = 0 ∧
    composed.inDisplay 639 0 = true ∧ composed.inDisplay 640 0 = false ∧ composed.inDisplay 0 1 = false := by decide +kernel

/-- RenderRedrawsExactlyTheClip: a well-formed surface, a clip that covers it, and a clip with pixels in and out of it. -/
theorem witness_render :
    Surface.wf ⟨2, 1, [9, 9]⟩ = true ∧ inClip ⟨2, 1, [9, 9]⟩ ⟨0, 0, 1, 1⟩ 0 0 = true ∧
    inClip ⟨2, 1, [9, 9]⟩ ⟨0, 0, 1, 1⟩ 1 0 = false ∧ DutyWholeSurface ⟨2, 1, [9, 9]⟩ ⟨0, 0, 2, 1⟩ := by
  refine ⟨by decide, by decide, by decide, ?_⟩
  unfold DutyWholeSurface
  decide

/-- PaletteWriteShowsInTheNextPixel: pixel (0, 0) of `composed` shows main entry 5. -/
theorem witness_palette_shows :
    composed.pal.length = nPal composed.cfg.variant ∧ composed.cursorIndex 0 0 = 0 ∧ composed.inDisplay 0 0 = true ∧
    composed.cfg.mainMap[(composed.mainIndex 0 0).toNat]? = some (5#4).toNat := by decide +kernel

/-- ClearSilencesOneChannel: a state with the invariant and an inactive channel. -/
theorem witness_clear : Inv hostReady ∧ (hostReady.dacRead 3).active = false := ⟨hostReady_inv, by decide +kernel⟩

/-- VideoFireStartsTheNextScanline, SoundFrequencyWriteRestartsThePeriod. -/
theorem witness_timers :
    (scanning 0 true).geo.valid = true ∧ (scanning 0 true).geo.tLine = some (64 / 1000000) ∧
    0 < ((fresh .gen1).cfg.soundDiv : Rat) * ((1 % 256 : Nat) : Rat) * (fresh .gen1).cfg.soundUnit ∧
    ¬ 0 < ((fresh .gen1).cfg.soundDiv : Rat) * ((0 % 256 : Nat) : Rat) * (fresh .gen1).cfg.soundUnit := by decide +kernel

end Sys2Proof.Tests
end

/-! Proofs for 00_scope.md: the configuration is fixed (R10), and what the default parameters select (R12). -/

namespace Sys2Proof.Machine

/-! ### The configuration (R10) -/

/-- Neither setting up a step nor the instruction it runs touches the configuration. -/
theorem stepWith_cfg {choice : Nat} {s t : State} (h : stepWith choice s = .next t) : t.cfg = s.cfg := by
  obtain ⟨_, _, -, -, -, hexec⟩ | ⟨_, _, -, -, -, hexec⟩ := stepWith_next_cases h <;>
    exact (exec_sameFrame hexec).cfg

/-- Settles O18: whichever step is taken, its instruction keeps the frame (`exec_sameFrame`). -/
theorem configurationIsFixed : Obligations.ConfigurationIsFixed :=
  fun _ _ _ h => stepWith_cfg h

/-! ### The fields of the control word as numbers (R22) -/

theorem ctrlPcs_toNat (w : Word) : (ctrlPcs w).toNat = w.toNat % 4 := by
  simp [ctrlPcs]

theorem ctrlBppCode_toNat (w : Word) : (ctrlBppCode w).toNat = w.toNat / 4 % 4 := by
  simp [ctrlBppCode, Nat.shiftRight_eq_div_pow]

/-! ### The default parameters (R12) -/

theorem bppBits_bppOfCode (code : BitVec 2) : bppBits (bppOfCode code) = 2 ^ code.toNat := by
  revert code
  decide

/-- The default `BPP_SET` holds every depth, so that no code falls back (R68). -/
theorem effectiveBpp_default (v : Variant) (w : Word) :
    effectiveBpp (defaultConfig v) w = bppOfCode (ctrlBppCode w) := by
  have all : ∀ b : Bpp, b ∈ [Bpp.b1, .b2, .b4, .b8] := by
    intro b
    cases b <;> decide
  exact effectiveBpp_of_mem (all _)

/-- The default `HCONV(b)` is `b` (R69). -/
theorem hconvOf_default (v : Variant) (b : Bpp) : hconvOf (defaultConfig v) b = bppBits b := by
  cases b <;> rfl

/-- The default pixel rates as a list, by clock source (R12, R71). -/
theorem pixClkHz_eq_getD (s : BitVec 2) :
    pixClkHz s.toNat = [8000000, 12000000, 16000000, 24000000].getD s.toNat 0 := by
  revert s
  decide

/-- Settles O29: no fallback is taken, so each field of the record is the default table's entry for the code or source. -/
theorem defaultDepthFactorAndClock : Obligations.DefaultDepthFactorAndClock := by
  rintro v r w g rfl
  have depth : bppBits (effectiveBpp (defaultConfig v) w) = 2 ^ (w.toNat / 4 % 4) := by
    rw [effectiveBpp_default, bppBits_bppOfCode, ctrlBppCode_toNat]
  refine ⟨depth, ?factor, ?clock⟩
  case factor => exact (hconvOf_default v _).trans depth
  case clock =>
    calc pixelClock (defaultConfig v) (effectiveBpp (defaultConfig v) w) (ctrlPcs w)
        = pixClkHz (ctrlPcs w).toNat := pixelClock_default v _ _
      _ = [8000000, 12000000, 16000000, 24000000].getD (ctrlPcs w).toNat 0 := pixClkHz_eq_getD _
      _ = [8000000, 12000000, 16000000, 24000000].getD (w.toNat % 4) 0 := by rw [ctrlPcs_toNat]

end Sys2Proof.Machine

/-! Proofs for 10_state.md: which instructions a host reaches (R24), when time moves (R34), the invariant at construction (R36),
and who writes each part of the state (R21 to R35). -/

namespace Sys2Proof.Machine

/-! ### Host calls reach only the variant's instructions (R24, R53) -/

theorem crtcInstr_wf (v : Variant) (k : BitVec 4) (x : Word) : (crtcInstr k x).wf v = true := by
  unfold crtcInstr
  split <;> rfl

theorem ite_wf {v : Variant} {p : Prop} [Decidable p] {i j : Instr} (hi : i.wf v = true) (hj : j.wf v = true) :
    (if p then i else j).wf v = true := by
  split
  · exact hi
  · exact hj

/-- Only the words 0x50 and 0x54 are decoded by the variant, and there each variant gets an instruction of its own. -/
theorem decodeOffset_wf (v : Variant) (A : Byte) (x : Word) : (decodeOffset v A x).wf v = true := by
  refine ite_wf rfl <| ite_wf rfl <| ite_wf rfl <| ite_wf rfl <| ite_wf rfl <| ite_wf ?variantWords <| ite_wf rfl <|
    ite_wf rfl <| ite_wf (crtcInstr_wf v _ x) <| ite_wf rfl rfl
  case variantWords =>
    cases v with
    | gen1 => rfl
    | gen1Lcd => rfl
    | gen2 => exact ite_wf rfl rfl

/-- Settles O6: a register write by the address map (`decodeOffset_wf`), `render` by its surface, and the other calls exist on
every variant. -/
theorem everyCallIsAnInstructionOfTheVariant : Obligations.EveryCallIsAnInstructionOfTheVariant := by
  intro v c hsurface
  cases c with
  | write a x => exact decodeOffset_wf v (windowOffset a) x
  | render sf clip => exact hsurface sf clip rfl
  | _ => rfl

/-! ### Virtual time (R34) -/

/-- Under the invariant no timer is overdue (R126). -/
theorem Inv.now_le_due {s : State} (hs : Inv s) {k : TimerKind} {d : Time} (hd : s.due k = some d) : s.now ≤ d := by
  cases k with
  | video => exact hs.dueFuture.1 d hd
  | sound => exact hs.dueFuture.2 d hd

/-- Settles O16: a step sets `now` to the time of an enabled call or to a due time, and its instruction leaves it there. -/
theorem timeNeverDecreases : Obligations.TimeNeverDecreases := by
  intro choice s t hs h
  obtain ⟨c, rest, -, hle, -, hexec⟩ | ⟨k, d, hd, -, -, hexec⟩ := stepWith_next_cases h
  · calc s.now ≤ c.time := hle
      _ = t.now := (exec_sameFrame hexec).now.symm
  · calc s.now ≤ d := hs.now_le_due hd
      _ = t.now := (exec_sameFrame hexec).now.symm

/-! ### Construction (R36) -/

@[simp] theorem construct_dacRead (c : Config) (vram cram : Memory) (ch : BitVec 3) :
    (State.construct c vram cram).dacRead ch = DacChannel.initial c := by
  simp [State.dacRead, State.construct]

/-- A constructed device has the registers of zero, whose geometry is invalid, and no timer armed. -/
theorem construct_inv {c : Config} {vram cram : Memory} (hc : c.wf = true) (hv : Memory.wf vram)
    (hvin : Memory.within vram c.vramBits) (hm : Memory.wf cram) (hmin : Memory.within cram c.cramBits) :
    Inv (State.construct c vram cram) where
  cfgWf := hc
  crtcMasked k := by simp [State.construct]
  ctrlMasked := by simp [State.construct]
  palSize := by simp [State.construct]
  vramWf := hv
  vramWithin := hvin
  cramWf := hm
  cramWithin := hmin
  gains ch := by
    rw [construct_dacRead]
    exact ⟨rfl, rfl⟩
  silent ch _ := by
    rw [construct_dacRead]
    exact ⟨rfl, rfl, rfl⟩
  geoExact := rfl
  vlineBound hvalid := absurd hvalid (by simp [State.construct, geometry_zero_invalid])
  dueFuture := ⟨nofun, nofun⟩
  videoValid h := absurd rfl h
  soundPositive h := absurd rfl h

theorem defaultConfig_wf (v : Variant) : (defaultConfig v).wf = true := by
  cases v <;> decide +kernel

/-- Settles O15: `State.reset` is the construction with the default parameters and empty buffers. -/
theorem invariantHoldsAtConstruction : Obligations.InvariantHoldsAtConstruction := by
  have empty : Memory.wf [] := ⟨.nil, nofun⟩
  exact ⟨fun _ _ _ hc hv hvin hm hmin => construct_inv hc hv hvin hm hmin,
    construct_inv (defaultConfig_wf tableVariant) empty nofun empty nofun⟩

/-! ### What the reset event and a channel store leave alone (R145, R28) -/

@[simp] theorem resetEvent_vram (s : State) : s.resetEvent.vram = s.vram := rfl
@[simp] theorem resetEvent_cram (s : State) : s.resetEvent.cram = s.cram := rfl
@[simp] theorem resetEvent_history (s : State) : s.resetEvent.history = s.history := rfl
@[simp] theorem resetEvent_replies (s : State) : s.resetEvent.replies = s.replies := rfl

/-- The reset event touches the index latch on GEN2 only (R145). -/
theorem resetEvent_palidx_of_ne {s : State} (h : s.cfg.variant ≠ .gen2) : s.resetEvent.palidx = s.palidx := by
  cases hv : s.cfg.variant with
  | gen1 => simp [State.resetEvent, palidxAfterReset, hv]
  | gen1Lcd => simp [State.resetEvent, palidxAfterReset, hv]
  | gen2 => exact absurd hv h

@[simp] theorem setDac_setDac (s : State) (c : BitVec 3) (d d' : DacChannel) : (s.setDac c d).setDac c d' = s.setDac c d' := by
  simp [State.setDac]

/-- The gains `stereo_refresh` derives from a record just stored go into that record (R116). -/
@[simp] theorem stereoRefresh_setDac (s : State) (c : BitVec 3) (d : DacChannel) :
    (s.setDac c d).stereoRefresh c = s.setDac c { d with gainL := gainLeft s.cfg d.pan, gainR := gainRight s.cfg d.pan } := by
  simp [stereoRefresh_eq]

/-- A store to channel `j` changes no other channel (R28). -/
theorem eq_of_dacRead_setDac_ne {s : State} {c j : BitVec 3} {d : DacChannel}
    (h : (s.setDac j d).dacRead c ≠ s.dacRead c) : j = c := by
  by_contra hjc
  exact h (by rw [dacRead_setDac, if_neg (Ne.symm hjc)])

/-! ### What an instruction does to the state -/

/-- A palette write of every variant (R102, R103). -/
def PaletteWrite (i : Instr) : Prop :=
  (∃ n x, i = .palMain n x) ∨ ∃ x, i ∈ [.border x, .curpal1 x, .curpal2 x, .curpal3 x]

/-- One of the three calls with an answer (R51). -/
def ReadCall (i : Instr) : Prop := i = .flybackR ∨ (∃ c, i = .dacLevel c) ∨ ∃ sf clip, i = .render sf clip

/-- `Effect s i t`: the writes to the state by which instruction `i` takes `s` to `t`. One case per kind of write, so that a claim
about who writes a field has a case for each of them and not one for each row of the opcode table. Left open are only which entry
and colour a palette write stores, and what a read answers. -/
inductive Effect (s : State) : Instr → State → Prop where
  | hole (i : Instr) (x : Word) : i ∈ [.hole x, .holeGen1 x] → Effect s i s
  | otherVariant (i : Instr) (x : Word) : s.cfg.variant ≠ .gen2 → i ∈ [.pal8 x, .palidx x] → Effect s i s
  | palette (i : Instr) (e : Nat) (c : Rgb) : PaletteWrite i → Effect s i (s.setPal e c)
  | pal8 (x : Word) : s.cfg.variant = .gen2 →
      Effect s (.pal8 x) ((s.setPal (mainBase s.cfg.variant + s.palidx.toNat) (pal8Convert x)).setPalidx (s.palidx + 1))
  | palidx (x : Word) : s.cfg.variant = .gen2 → Effect s (.palidx x) (s.setPalidx (palidxField x))
  | stereo (c : BitVec 3) (x : Word) : Effect s (.stereo c x) ((s.setDac c { s.dacRead c with pan := panField x }).stereoRefresh c)
  | writeDac (n x : Nat) : Effect s (.writeDac n x)
      (s.setDac (channelArg n) ((s.dacRead (channelArg n)).withSample (lutRead s.cfg (byteArg x))))
  | clearDac (n : Nat) : Effect s (.clearDac n) (s.setDac (channelArg n) (s.dacRead (channelArg n)).cleared)
  | crtc (k : CrtcSlot) (x : Word) : Effect s (crtcInstrOf k x) (s.setCrtc k (crtcField s.cfg x)).geoUpdate
  | sfr (x : Word) : Effect s (.sfr x) (s.setSfr (sfrField x)).soundRefresh
  | ctrl (x : Word) : s.cfg.variant ≠ .gen2 → Effect s (.ctrl x) (s.setCtrl (ctrlField s.cfg.variant x)).geoUpdate
  | ctrlGen2 (x : Word) : s.cfg.variant = .gen2 →
      Effect s (.ctrl x) (s.setCtrl (ctrlField s.cfg.variant x)).geoUpdate.soundRefresh
  | vram (o b : Nat) : Effect s (.writeVram o b) (s.vramWrite o (byteArg b))
  | cram (o b : Nat) : Effect s (.writeCram o b) (s.cramWrite o (byteArg b))
  | answer (i : Instr) (r : Reply) : ReadCall i → Effect s i (s.answer r)
  | reset : Effect s .reset s.resetEvent
  | videoFire : Effect s .videoFire
      ((s.setVline ((s.vline + 1) % s.geo.vt)).updateFlyback.arm .video (s.geo.tLine.map (s.now + ·)))
  | soundFire : Effect s .soundFire ((s.emit .soundDrq).arm .sound (some (s.now + soundPeriod s.cfg s.sfr)))

/-- Every instruction acts on the state by one of the effects. -/
theorem exec_effect {i : Instr} {s t : State} (h : exec i s = .next t) : Effect s i t := by
  cases i with
  | palMain n x => cases h; exact .palette _ _ _ (.inl ⟨n, x, rfl⟩)
  | border x => cases h; exact .palette _ _ _ (.inr ⟨x, by simp⟩)
  | curpal1 x => cases h; exact .palette _ _ _ (.inr ⟨x, by simp⟩)
  | curpal2 x => cases h; exact .palette _ _ _ (.inr ⟨x, by simp⟩)
  | curpal3 x => cases h; exact .palette _ _ _ (.inr ⟨x, by simp⟩)
  | pal8 x =>
    simp only [exec, execPal8] at h
    split at h <;> cases h
    · exact .otherVariant _ x (by simp [*]) (by simp)
    · exact .otherVariant _ x (by simp [*]) (by simp)
    · exact .pal8 x ‹_›
  | palidx x =>
    simp only [exec, execPalidx] at h
    split at h <;> cases h
    · exact .otherVariant _ x (by simp [*]) (by simp)
    · exact .otherVariant _ x (by simp [*]) (by simp)
    · exact .palidx x ‹_›
  | holeGen1 x => cases h; exact .hole _ x (by simp)
  | hole x => cases h; exact .hole _ x (by simp)
  | stereo c x => cases h; exact .stereo c x
  | writeDac n x => cases h; exact .writeDac n x
  | clearDac n => cases h; exact .clearDac n
  | crtcHcr x => cases h; exact .crtc .hcr x
  | crtcHswr x => cases h; exact .crtc .hswr x
  | crtcHbsr x => cases h; exact .crtc .hbsr x
  | crtcHber x => cases h; exact .crtc .hber x
  | crtcHdsr x => cases h; exact .crtc .hdsr x
  | crtcHder x => cases h; exact .crtc .hder x
  | crtcHcsr x => cases h; exact .crtc .hcsr x
  | crtcHcer x => cases h; exact .crtc .hcer x
  | crtcVcr x => cases h; exact .crtc .vcr x
  | crtcVswr x => cases h; exact .crtc .vswr x
  | crtcVbsr x => cases h; exact .crtc .vbsr x
  | crtcVber x => cases h; exact .crtc .vber x
  | crtcVdsr x => cases h; exact .crtc .vdsr x
  | crtcVder x => cases h; exact .crtc .vder x
  | crtcVcsr x => cases h; exact .crtc .vcsr x
  | crtcVcer x => cases h; exact .crtc .vcer x
  | sfr x => cases h; exact .sfr x
  | ctrl x =>
    simp only [exec, execCtrl] at h
    split at h <;> cases h
    · exact .ctrl x (by simp [*])
    · exact .ctrl x (by simp [*])
    · exact .ctrlGen2 x ‹_›
  | writeVram o b => cases h; exact .vram o b
  | writeCram o b => cases h; exact .cram o b
  | flybackR => cases h; exact .answer _ _ (.inl rfl)
  | dacLevel n => cases h; exact .answer _ _ (.inr (.inl ⟨n, rfl⟩))
  | render sf clip => cases h; exact .answer _ _ (.inr (.inr ⟨sf, clip, rfl⟩))
  | reset => cases h; exact .reset
  | videoFire => cases h; exact .videoFire
  | soundFire => cases h; exact .soundFire

/-! ### Who writes what -/

namespace Effect

variable {s t : State} {i : Instr}

/-! The register file (R21 to R24). -/

theorem of_crtc_ne (h : Effect s i t) {k : CrtcSlot} (hne : t.crtc.get k ≠ s.crtc.get k) :
    i = .reset ∨ ∃ x, i = crtcInstrOf k x := by
  cases h with
  | reset => exact .inl rfl
  | crtc j x =>
    obtain rfl : j = k := by
      by_contra hjk
      exact hne (by simp [crtc_get_set, Ne.symm hjk])
    exact .inr ⟨x, rfl⟩
  | _ => simp at hne

theorem of_ctrl_ne (h : Effect s i t) (hne : t.ctrl ≠ s.ctrl) : i = .reset ∨ ∃ x, i = .ctrl x := by
  cases h with
  | reset => exact .inl rfl
  | ctrl x => exact .inr ⟨x, rfl⟩
  | ctrlGen2 x => exact .inr ⟨x, rfl⟩
  | _ => simp at hne

theorem of_sfr_ne (h : Effect s i t) (hne : t.sfr ≠ s.sfr) : i = .reset ∨ ∃ x, i = .sfr x := by
  cases h with
  | reset => exact .inl rfl
  | sfr x => exact .inr ⟨x, rfl⟩
  | _ => simp at hne

theorem of_palidx_ne (h : Effect s i t) (hne : t.palidx ≠ s.palidx) :
    s.cfg.variant = .gen2 ∧ (i = .reset ∨ ∃ x, i = .pal8 x ∨ i = .palidx x) := by
  cases h with
  | reset => exact ⟨by_contra fun hv => hne (resetEvent_palidx_of_ne hv), .inl rfl⟩
  | pal8 x hv => exact ⟨hv, .inr ⟨x, .inl rfl⟩⟩
  | palidx x hv => exact ⟨hv, .inr ⟨x, .inr rfl⟩⟩
  | _ => simp at hne

/-! The buffers, the palette and the channels (R25 to R28). -/

theorem of_vram_ne (h : Effect s i t) (hne : t.vram ≠ s.vram) : ∃ o b, i = .writeVram o b := by
  cases h with
  | vram o b => exact ⟨o, b, rfl⟩
  | _ => simp at hne

theorem of_cram_ne (h : Effect s i t) (hne : t.cram ≠ s.cram) : ∃ o b, i = .writeCram o b := by
  cases h with
  | cram o b => exact ⟨o, b, rfl⟩
  | _ => simp at hne

theorem of_pal_ne (h : Effect s i t) (hne : t.pal ≠ s.pal) : i = .reset ∨ PaletteWrite i ∨ ∃ x, i = .pal8 x := by
  cases h with
  | reset => exact .inl rfl
  | palette _ _ _ hi => exact .inr (.inl hi)
  | pal8 x => exact .inr (.inr ⟨x, rfl⟩)
  | _ => simp at hne

theorem of_dacRead_ne (h : Effect s i t) {c : BitVec 3} (hne : t.dacRead c ≠ s.dacRead c) :
    i = .reset ∨ (∃ x, i = .stereo c x) ∨ ∃ n, n % 8 = c.toNat ∧ (i = .clearDac n ∨ ∃ x, i = .writeDac n x) := by
  cases h with
  | reset => exact .inl rfl
  | stereo j x =>
    rw [stereoRefresh_setDac] at hne
    obtain rfl := eq_of_dacRead_setDac_ne hne
    exact .inr (.inl ⟨x, rfl⟩)
  | writeDac n x =>
    have hn : n % 8 = c.toNat := by simp [← eq_of_dacRead_setDac_ne hne, channelArg]
    exact .inr (.inr ⟨n, hn, .inr ⟨x, rfl⟩⟩)
  | clearDac n =>
    have hn : n % 8 = c.toNat := by simp [← eq_of_dacRead_setDac_ne hne, channelArg]
    exact .inr (.inr ⟨n, hn, .inl rfl⟩)
  | _ => simp [State.dacRead] at hne

/-! The line, the geometry, the timers, the history and the answers (R29, R31, R32, R33, R35, R51). -/

theorem of_flyback_ne (h : Effect s i t) (hne : t.flyback ≠ s.flyback) : i = .reset ∨ i = .videoFire := by
  cases h with
  | reset => exact .inl rfl
  | videoFire => exact .inr rfl
  | _ => simp at hne

theorem of_vline_or_dueVideo_ne (h : Effect s i t) (hne : t.vline ≠ s.vline ∨ t.dueVideo ≠ s.dueVideo) :
    i = .reset ∨ i = .videoFire ∨ (∃ x, i = .ctrl x) ∨ ∃ k x, i = crtcInstrOf k x := by
  cases h with
  | reset => exact .inl rfl
  | videoFire => exact .inr (.inl rfl)
  | ctrl x => exact .inr (.inr (.inl ⟨x, rfl⟩))
  | ctrlGen2 x => exact .inr (.inr (.inl ⟨x, rfl⟩))
  | crtc k x => exact .inr (.inr (.inr ⟨k, x, rfl⟩))
  | _ => simp at hne

theorem of_geo_ne (h : Effect s i t) (hne : t.geo ≠ s.geo) :
    i = .reset ∨ (∃ x, i = .ctrl x) ∨ ∃ k x, i = crtcInstrOf k x := by
  cases h with
  | reset => exact .inl rfl
  | ctrl x => exact .inr (.inl ⟨x, rfl⟩)
  | ctrlGen2 x => exact .inr (.inl ⟨x, rfl⟩)
  | crtc k x => exact .inr (.inr ⟨k, x, rfl⟩)
  | _ => simp at hne

theorem of_dueSound_ne (h : Effect s i t) (hne : t.dueSound ≠ s.dueSound) :
    i = .reset ∨ i = .soundFire ∨ (∃ x, i = .sfr x) ∨ s.cfg.variant = .gen2 ∧ ∃ x, i = .ctrl x := by
  cases h with
  | reset => exact .inl rfl
  | soundFire => exact .inr (.inl rfl)
  | sfr x => exact .inr (.inr (.inl ⟨x, rfl⟩))
  | ctrlGen2 x hv => exact .inr (.inr (.inr ⟨hv, x, rfl⟩))
  | _ => simp at hne

theorem of_history_ne (h : Effect s i t) (hne : t.history ≠ s.history) :
    i = .videoFire ∨ i = .soundFire ∨ (∃ x, i = .ctrl x) ∨ ∃ k x, i = crtcInstrOf k x := by
  cases h with
  | videoFire => exact .inl rfl
  | soundFire => exact .inr (.inl rfl)
  | ctrl x => exact .inr (.inr (.inl ⟨x, rfl⟩))
  | ctrlGen2 x => exact .inr (.inr (.inl ⟨x, rfl⟩))
  | crtc k x => exact .inr (.inr (.inr ⟨k, x, rfl⟩))
  | _ => simp at hne

theorem of_replies_ne (h : Effect s i t) (hne : t.replies ≠ s.replies) : ReadCall i := by
  cases h with
  | answer _ _ hi => exact hi
  | _ => simp at hne

end Effect

/-- Settles O20, a clause for each register. -/
theorem registersChangeOnlyByTheirWrites : Obligations.RegistersChangeOnlyByTheirWrites := by
  intro i s t h
  have e := exec_effect h
  exact ⟨fun _ => e.of_crtc_ne, e.of_ctrl_ne, e.of_sfr_ne, e.of_palidx_ne⟩

/-- Settles O21, a clause for each buffer, for the palette and for every channel. -/
theorem buffersPaletteAndChannelsChangeOnlyByTheirOwn : Obligations.BuffersPaletteAndChannelsChangeOnlyByTheirOwn := by
  intro i s t h
  have e := exec_effect h
  refine ⟨e.of_vram_ne, e.of_cram_ne, fun hne => ?palette, fun _ => e.of_dacRead_ne⟩
  case palette =>
    obtain hi | (hmain | ⟨x, hx⟩) | ⟨x, hx⟩ := e.of_pal_ne hne
    · exact .inl hi
    · exact .inr (.inl hmain)
    · exact .inr (.inr ⟨x, List.mem_of_mem_dropLast hx⟩)
    · exact .inr (.inr ⟨x, by simp [hx]⟩)

/-- Settles O22, a clause for each of the line, the counter with the video timer, the geometry, the sound timer, the history and
the answers. -/
theorem lineTimersAndEventsChangeOnlyByTheirOwn : Obligations.LineTimersAndEventsChangeOnlyByTheirOwn := by
  intro i s t h
  have e := exec_effect h
  exact ⟨e.of_flyback_ne, e.of_vline_or_dueVideo_ne, e.of_geo_ne, e.of_dueSound_ne, e.of_history_ne, e.of_replies_ne⟩

end Sys2Proof.Machine

/-! Proofs for 20_memory.md: the byte frame of a register write (section 1, log 9), and the writes that are idempotent (R43). -/

namespace Sys2Proof

/-! ### The byte frame (R50, log 9) -/

/-- Where an instruction exists on the variant, the call that encodes it decodes to it. -/
theorem decodeCall_of_encode : (i : Instr) → Laws.RoundTrip.Statement i
  | .palMain i x => Laws.RoundTrip.palMain i x
  | .border x => Laws.RoundTrip.border x
  | .curpal1 x => Laws.RoundTrip.curpal1 x
  | .curpal2 x => Laws.RoundTrip.curpal2 x
  | .curpal3 x => Laws.RoundTrip.curpal3 x
  | .pal8 x => Laws.RoundTrip.pal8 x
  | .palidx x => Laws.RoundTrip.palidx x
  | .holeGen1 x => Laws.RoundTrip.holeGen1 x
  | .hole x => Laws.RoundTrip.hole x
  | .stereo ch x => Laws.RoundTrip.stereo ch x
  | .crtcHcr x => Laws.RoundTrip.crtcHcr x
  | .crtcHswr x => Laws.RoundTrip.crtcHswr x
  | .crtcHbsr x => Laws.RoundTrip.crtcHbsr x
  | .crtcHber x => Laws.RoundTrip.crtcHber x
  | .crtcHdsr x => Laws.RoundTrip.crtcHdsr x
  | .crtcHder x => Laws.RoundTrip.crtcHder x
  | .crtcHcsr x => Laws.RoundTrip.crtcHcsr x
  | .crtcHcer x => Laws.RoundTrip.crtcHcer x
  | .crtcVcr x => Laws.RoundTrip.crtcVcr x
  | .crtcVswr x => Laws.RoundTrip.crtcVswr x
  | .crtcVbsr x => Laws.RoundTrip.crtcVbsr x
  | .crtcVber x => Laws.RoundTrip.crtcVber x
  | .crtcVdsr x => Laws.RoundTrip.crtcVdsr x
  | .crtcVder x => Laws.RoundTrip.crtcVder x
  | .crtcVcsr x => Laws.RoundTrip.crtcVcsr x
  | .crtcVcer x => Laws.RoundTrip.crtcVcer x
  | .sfr x => Laws.RoundTrip.sfr x
  | .ctrl x => Laws.RoundTrip.ctrl x
  | .writeVram o b => Laws.RoundTrip.writeVram o b
  | .writeCram o b => Laws.RoundTrip.writeCram o b
  | .writeDac c x => Laws.RoundTrip.writeDac c x
  | .clearDac c => Laws.RoundTrip.clearDac c
  | .dacLevel c => Laws.RoundTrip.dacLevel c
  | .flybackR => Laws.RoundTrip.flybackR
  | .render sf clip => Laws.RoundTrip.render sf clip
  | .reset => Laws.RoundTrip.reset
  | .videoFire => Laws.RoundTrip.videoFire
  | .soundFire => Laws.RoundTrip.soundFire

/-- Only a register write has a frame: its address, then its value. -/
theorem encodeBytes_eq_some {i : Instr} {bs : List Byte} (h : encodeBytes i = some bs) :
    ∃ a x, encode i = some (.write a x) ∧ bs = bytesOfWord a ++ bytesOfWord x := by
  unfold encodeBytes at h
  split at h
  · next a x hwrite => exact ⟨a, x, hwrite, (Option.some.inj h).symm⟩
  · nomatch h

/-- Bytes that do not hold a whole frame are rejected. -/
theorem decodeBytes_of_short (v : Variant) {bs : List Byte} (h : bs.length < 8) :
    decodeBytes v bs = .rejected .truncated := by
  unfold decodeBytes
  split
  · simp only [List.length_cons] at h
    omega
  · rfl

end Sys2Proof

namespace Sys2Proof.Machine

/-- Settles O5: a frame decodes to its register write (`decodeBytes_frame`), which is the instruction it encodes
(`decodeCall_of_encode`). -/
theorem frameOfAWriteDecodesToIt : Obligations.FrameOfAWriteDecodesToIt := by
  refine ⟨?frame, fun v _ => decodeBytes_of_short v⟩
  case frame =>
    intro v i bs rest hwf hbytes
    obtain ⟨a, x, hwrite, rfl⟩ := encodeBytes_eq_some hbytes
    have hcall : decodeWrite v a x = i := decodeCall_of_encode i v _ hwf hwrite
    rw [decodeBytes_frame, hcall]

/-! ### Storing what already stands there -/

@[simp] theorem crtc_set_get (c : Crtc) (k : CrtcSlot) : c.set k (c.get k) = c := by
  cases k <;> rfl

theorem setCrtc_of_get_eq {s : State} {k : CrtcSlot} {x : Word} (h : s.crtc.get k = x) : s.setCrtc k x = s := by
  simp [State.setCrtc, ← h]

theorem setCtrl_of_ctrl_eq {s : State} {x : Word} (h : s.ctrl = x) : s.setCtrl x = s := by
  simp [State.setCtrl, ← h]

@[simp] theorem setPal_setPal (s : State) (e : Nat) (c d : Rgb) : (s.setPal e c).setPal e d = s.setPal e d := by
  simp [State.setPal]

/-! ### The idempotent writes (R43) -/

/-- The second write stores what the first stored, and finds the geometry exact. -/
@[simp] theorem crtcWrite_crtcWrite (s : State) (k : CrtcSlot) (x : Word) :
    (s.crtcWrite k x).crtcWrite k x = s.crtcWrite k x := by
  have stored : (s.crtcWrite k x).setCrtc k (crtcField s.cfg x) = s.crtcWrite k x :=
    setCrtc_of_get_eq (by simp [State.crtcWrite])
  calc (s.crtcWrite k x).crtcWrite k x
      = ((s.crtcWrite k x).setCrtc k (crtcField s.cfg x)).geoUpdate := by simp [State.crtcWrite]
    _ = (s.crtcWrite k x).geoUpdate := by rw [stored]
    _ = s.crtcWrite k x := geoUpdate_geoUpdate _

/-- As for a slot: the word is stored and the geometry exact. -/
@[simp] theorem ctrlWrite_ctrlWrite (s : State) (x : Word) : (s.ctrlWrite x).ctrlWrite x = s.ctrlWrite x := by
  have stored : (s.ctrlWrite x).setCtrl (ctrlField s.cfg.variant x) = s.ctrlWrite x :=
    setCtrl_of_ctrl_eq (by simp [State.ctrlWrite])
  calc (s.ctrlWrite x).ctrlWrite x
      = ((s.ctrlWrite x).setCtrl (ctrlField s.cfg.variant x)).geoUpdate := by simp [State.ctrlWrite]
    _ = (s.ctrlWrite x).geoUpdate := by rw [stored]
    _ = s.ctrlWrite x := geoUpdate_geoUpdate _

@[simp] theorem palMainWrite_palMainWrite (s : State) (n : BitVec 4) (x : Word) :
    (s.palMainWrite n x).palMainWrite n x = s.palMainWrite n x := by
  simp [State.palMainWrite]

@[simp] theorem curpalWrite_curpalWrite (s : State) (ci : Nat) (x : Word) :
    (s.curpalWrite ci x).curpalWrite ci x = s.curpalWrite ci x := by
  by_cases hborder : ci = 0
  · simp [State.curpalWrite, hborder]
  · simp [State.curpalWrite, hborder]

/-- A pan write stores the pan with the gains that belong to it, and keeps the rest of the channel (R116, R117). -/
theorem exec_stereo (c : BitVec 3) (x : Word) (s : State) :
    exec (.stereo c x) s = .next (s.setDac c
      { s.dacRead c with pan := panField x, gainL := gainLeft s.cfg (panField x), gainR := gainRight s.cfg (panField x) }) := by
  simp [exec, execStereo]

theorem exec_palMain (n : BitVec 4) (x : Word) (s : State) : exec (.palMain n x) s = .next (s.palMainWrite n x) := rfl

theorem exec_crtcInstrOf (k : CrtcSlot) (x : Word) (s : State) : exec (crtcInstrOf k x) s = .next (s.crtcWrite k x) := by
  cases k <;> rfl

/-- A border or cursor write is the write of one of the cursor palette's slots (R103). -/
theorem exec_curpal {i : Instr} {x : Word} (h : i ∈ [.border x, .curpal1 x, .curpal2 x, .curpal3 x]) :
    ∃ ci, ∀ s, exec i s = .next (s.curpalWrite ci x) := by
  simp only [List.mem_cons, List.not_mem_nil, or_false] at h
  obtain rfl | rfl | rfl | rfl := h
  · exact ⟨0, fun _ => rfl⟩
  · exact ⟨1, fun _ => rfl⟩
  · exact ⟨2, fun _ => rfl⟩
  · exact ⟨3, fun _ => rfl⟩

/-- Off GEN2 a control write starts no sound timer (R96). -/
theorem exec_ctrl_of_ne_gen2 {s : State} (h : s.cfg.variant ≠ .gen2) (x : Word) :
    exec (.ctrl x) s = .next (s.ctrlWrite x) := by
  cases hv : s.cfg.variant with
  | gen1 => simp [exec, execCtrl, hv]
  | gen1Lcd => simp [exec, execCtrl, hv]
  | gen2 => exact absurd hv h

/-- Settles O31: each kind of write, done again, stores what it has stored. -/
theorem secondIdenticalWriteChangesNothing : Obligations.SecondIdenticalWriteChangesNothing := by
  rintro i s x (⟨k, rfl⟩ | ⟨n, rfl⟩ | hcur | ⟨ch, rfl⟩ | ⟨rfl, hv⟩)
  · exact ⟨_, exec_crtcInstrOf k x s, by rw [exec_crtcInstrOf, crtcWrite_crtcWrite]⟩
  · exact ⟨_, exec_palMain n x s, by rw [exec_palMain, palMainWrite_palMainWrite]⟩
  · obtain ⟨ci, hexec⟩ := exec_curpal hcur
    exact ⟨_, hexec s, by rw [hexec, curpalWrite_curpalWrite]⟩
  · exact ⟨_, exec_stereo ch x s, by simp [exec_stereo]⟩
  · have hv' : (s.ctrlWrite x).cfg.variant ≠ .gen2 := by simpa [State.ctrlWrite] using hv
    exact ⟨_, exec_ctrl_of_ne_gen2 hv x, by rw [exec_ctrl_of_ne_gen2 hv', ctrlWrite_ctrlWrite]⟩

end Sys2Proof.Machine

/-! Proofs for 30_encoding.md: decode and encode agree (R9, R51), the address map (R52), and the rows of the opcode table (R61). -/

namespace Sys2Proof.Machine

/-! ### The encoder (R9, R51) -/

/-- Only the timer fires have no call: no host fires a timer (R9). -/
theorem encode_eq_none_iff {i : Instr} : encode i = none ↔ i = .videoFire ∨ i = .soundFire := by
  constructor
  · intro hnone
    cases i with
    | videoFire => exact .inl rfl
    | soundFire => exact .inr rfl
    | _ => nomatch hnone
  · rintro (rfl | rfl)
    · rfl
    · rfl

/-- Settles O4: the round trip of every constructor is `decodeCall_of_encode`, and `encode_eq_none_iff` names the instructions
without a call. -/
theorem decodeOfEncodeIsTheInstruction : Obligations.DecodeOfEncodeIsTheInstruction :=
  fun v i hwf => ⟨fun c => decodeCall_of_encode i v c hwf, encode_eq_none_iff⟩

/-! ### The address map (R38, R50, R52) -/

theorem wordNumber_lt (a : Word) : wordNumber a < 64 := by
  unfold wordNumber
  omega

/-- Clearing bits [1:0] of the low address byte leaves four times the word number. -/
theorem windowOffset_eq_ofNat (a : Word) : windowOffset a = BitVec.ofNat 8 (4 * wordNumber a) := by
  have byte : ∀ y : Byte, y &&& 0xFC#8 = BitVec.ofNat 8 (4 * (y.toNat / 4)) := by decide
  have low : (a.extractLsb' 0 8).toNat = a.toNat % 256 := by simp
  rw [windowOffset, byte, low, wordNumber]

/-- The decode of a write is fixed by the number of the word its address reaches. -/
theorem decodeWrite_of_wordNumber {v : Variant} {a x : Word} {n : Nat} (h : wordNumber a = n) :
    decodeWrite v a x = decodeOffset v (BitVec.ofNat 8 (4 * n)) x := by
  rw [decodeWrite, windowOffset_eq_ofNat, h]

theorem decodeOffset_crtc (v : Variant) (k : CrtcSlot) (x : Word) :
    decodeOffset v (BitVec.ofNat 8 (4 * (32 + slotIndex k))) x = crtcInstrOf k x := by
  cases k <;> rfl

theorem decodeOffset_sfr (v : Variant) {n : Nat} (hlo : 48 ≤ n) (hhi : n < 56) (x : Word) :
    decodeOffset v (BitVec.ofNat 8 (4 * n)) x = .sfr x := by
  interval_cases n <;> rfl

theorem decodeOffset_ctrl (v : Variant) {n : Nat} (hlo : 56 ≤ n) (hhi : n < 64) (x : Word) :
    decodeOffset v (BitVec.ofNat 8 (4 * n)) x = .ctrl x := by
  interval_cases n <;> rfl

/-- Settles O1, a clause for each row of R52: `decodeWrite_of_wordNumber` leaves the decode at one offset, which evaluates for a
single word and is the lemma `decodeOffset_<row>` for a range of words. -/
theorem addressMapDecodesEveryWord : Obligations.AddressMapDecodesEveryWord := by
  intro v a x
  refine ⟨?palMain, ?border, ?curpal1, ?curpal2, ?curpal3, ?pal8, ?palidx, ?holes, ?stereo, ?crtc, ?sfr, ?ctrl⟩
  case palMain => exact fun i h => (decodeWrite_of_wordNumber h).trans (decodeOffset_palMain v i x)
  case border => exact decodeWrite_of_wordNumber
  case curpal1 => exact decodeWrite_of_wordNumber
  case curpal2 => exact decodeWrite_of_wordNumber
  case curpal3 => exact decodeWrite_of_wordNumber
  case pal8 => cases v <;> exact decodeWrite_of_wordNumber
  case palidx => cases v <;> exact decodeWrite_of_wordNumber
  case holes =>
    rintro (h | h)
    · exact decodeWrite_of_wordNumber h
    · exact decodeWrite_of_wordNumber h
  case stereo => exact fun ch h => (decodeWrite_of_wordNumber h).trans (decodeOffset_stereo v ch x)
  case crtc => exact fun k h => (decodeWrite_of_wordNumber h).trans (decodeOffset_crtc v k x)
  case sfr => exact fun ⟨hlo, hhi⟩ => (decodeWrite_of_wordNumber rfl).trans (decodeOffset_sfr v hlo hhi x)
  case ctrl => exact fun hlo => (decodeWrite_of_wordNumber rfl).trans (decodeOffset_ctrl v hlo (wordNumber_lt a) x)

/-! ### The rows of the opcode table (R61) -/

/-- A row covers the byte on the variant when the byte's bits under its mask are its pattern. -/
theorem covers_iff {r : OpcodeRow} {v : Variant} {a : Byte} :
    r.covers v a = true ↔ v ∈ r.variants ∧ a &&& r.mask = r.pattern := by
  simp [OpcodeRow.covers]

/-- No row looks at bits [1:0] of an address (R38). -/
theorem mask_and_of_mem : ∀ r ∈ opcodeRows, 0xFC#8 &&& r.mask = r.mask := by decide

theorem covers_windowOffset {r : OpcodeRow} (hr : r ∈ opcodeRows) (v : Variant) (a : Word) :
    r.covers v (windowOffset a) = r.covers v (a.extractLsb' 0 8) := by
  rw [OpcodeRow.covers, windowOffset, BitVec.and_assoc, mask_and_of_mem r hr, OpcodeRow.covers]

/-- Two rows of one variant differ in a bit that both masks keep. -/
theorem eq_of_patterns_agree (v : Variant) : ∀ q ∈ opcodeRows, ∀ r ∈ opcodeRows, v ∈ q.variants → v ∈ r.variants →
    q.pattern &&& r.mask = r.pattern &&& q.mask → q = r := by
  cases v <;> decide +kernel

/-- At most one row covers a byte: under both masks a common byte would give both patterns the same bits. -/
theorem eq_of_covers {q r : OpcodeRow} {v : Variant} {a : Byte} (hq : q ∈ opcodeRows) (hr : r ∈ opcodeRows)
    (hqa : q.covers v a = true) (hra : r.covers v a = true) : q = r := by
  obtain ⟨hqv, hqp⟩ := covers_iff.1 hqa
  obtain ⟨hrv, hrp⟩ := covers_iff.1 hra
  refine eq_of_patterns_agree v q hq r hr hqv hrv ?_
  rw [← hqp, ← hrp, BitVec.and_assoc, BitVec.and_assoc, BitVec.and_comm q.mask]

theorem crtcInstr_mnemonic (k : BitVec 4) (x y : Word) : (crtcInstr k x).mnemonic = (crtcInstr k y).mnemonic := by
  unfold crtcInstr
  split <;> rfl

theorem ite_mnemonic {p : Prop} [Decidable p] {i j i' j' : Instr} (hi : i.mnemonic = i'.mnemonic)
    (hj : j.mnemonic = j'.mnemonic) : (if p then i else j).mnemonic = (if p then i' else j').mnemonic := by
  split
  · exact hi
  · exact hj

/-- The value of a write has no part in which operation it is (R52). -/
theorem decodeOffset_mnemonic (v : Variant) (A : Byte) (x y : Word) :
    (decodeOffset v A x).mnemonic = (decodeOffset v A y).mnemonic := by
  refine ite_mnemonic rfl <| ite_mnemonic rfl <| ite_mnemonic rfl <| ite_mnemonic rfl <| ite_mnemonic rfl <|
    ite_mnemonic ?variantWords <| ite_mnemonic rfl <| ite_mnemonic rfl <|
    ite_mnemonic (crtcInstr_mnemonic _ x y) <| ite_mnemonic rfl rfl
  case variantWords =>
    cases v with
    | gen1 => rfl
    | gen1Lcd => rfl
    | gen2 => exact ite_mnemonic rfl rfl

/-- Each word of the window has a row, the one of the operation it decodes to (at the value 0). -/
theorem exists_row_of_word (v : Variant) (n : Fin 64) :
    ∃ r ∈ opcodeRows, r.covers v (BitVec.ofNat 8 (4 * n.val)) = true ∧
      (decodeOffset v (BitVec.ofNat 8 (4 * n.val)) 0).mnemonic = r.mnemonic := by
  revert n
  cases v <;> decide +kernel

/-- Settles O2: the row is the word's (`exists_row_of_word`), no other covers the byte (`eq_of_covers`), and the decoder gives only
the variant's instructions (`decodeOffset_wf`). -/
theorem everyWriteIsExactlyOneTableRow : Obligations.EveryWriteIsExactlyOneTableRow := by
  intro v a x
  obtain ⟨r, hr, hcovers, hmnemonic⟩ := exists_row_of_word v ⟨wordNumber a, wordNumber_lt a⟩
  rw [← windowOffset_eq_ofNat] at hcovers hmnemonic
  rw [covers_windowOffset hr] at hcovers
  exact ⟨r, hr, hcovers, fun q hq hqa => eq_of_covers hq hr hqa hcovers,
    (decodeOffset_mnemonic v _ x 0).trans hmnemonic, decodeOffset_wf v (windowOffset a) x⟩

/-! ### Writes of the test vectors -/

/-- Settles O3: each address reaches a word that decodes alone (`decodeWrite_of_wordNumber`), and the bytes are the frame of the
first write. -/
theorem writtenOutWritesDecode : Obligations.WrittenOutWritesDecode := by
  have hswr : decodeWrite .gen1 0x10000084#32 0xFFFF0040#32 = .crtcHswr 0xFFFF0040#32 :=
    decodeWrite_of_wordNumber (n := 33) rfl
  refine ⟨hswr, decodeWrite_of_wordNumber (n := 5) rfl, decodeWrite_of_wordNumber (n := 20) rfl,
    decodeWrite_of_wordNumber (n := 20) rfl, decodeWrite_of_wordNumber (n := 21) rfl,
    decodeWrite_of_wordNumber (n := 25) rfl, decodeWrite_of_wordNumber (n := 55) rfl,
    decodeWrite_of_wordNumber (n := 63) rfl, ?bytes⟩
  case bytes =>
    rw [← hswr]
    exact decodeBytes_frame .gen1 0x10000084#32 0xFFFF0040#32 []

end Sys2Proof.Machine

/-! Proofs for 40_register_write.md: a step runs the decoded call (R66, R125 (a)), and writes to holes (R67). -/

namespace Sys2Proof.Machine

/-! ### The step of an enabled host call (R66, R125 (a)) -/

theorem NoneDueBy.lt_due {s : State} {t : Time} (hnone : NoneDueBy s t) {k : TimerKind} {d : Time} (hd : s.due k = some d) :
    t < d := by
  cases k with
  | video => exact hnone.1 d hd
  | sound => exact hnone.2 d hd

theorem NoneDueBy.noneDueBefore {s : State} {t : Time} (hnone : NoneDueBy s t) : NoneDueBefore s t :=
  ⟨fun d hd => (hnone.1 d hd).le, fun d hd => (hnone.2 d hd).le⟩

section EnabledCall

variable {s : State} {h : HostStep} {rest : List HostStep} (hp : s.program = h :: rest) (hnow : s.now ≤ h.time)
  (hnone : NoneDueBy s h.time)
include hp hnow hnone

/-- No fire passes an enabled call with an earlier time (log 6). -/
theorem fire_not_mayTake (k : TimerKind) : s.mayTake (.fire k) = false := by
  cases hd : s.due k with
  | none => simp [State.mayTake, State.fireEnabled, hd]
  | some d =>
    have passesCall : s.hostBefore k = true :=
      (hostBefore_iff s k).mpr
        ⟨h, rest, d, hp, hd, (hostEnabled_iff s h.time).mpr ⟨hnow, hnone.noneDueBefore⟩, hnone.lt_due hd⟩
    simp [State.mayTake, passesCall]

/-- The call is the only step a run may take, so that there is no tie. -/
theorem candidates_eq_host : s.candidates = [.host] := by
  have call : s.mayTake .host = true :=
    (mem_candidates s .host).mp ((host_mem_candidates s).mpr ⟨h, rest, hp, hnow, hnone.noneDueBefore⟩)
  simp [State.candidates, call, fire_not_mayTake hp hnow hnone]

end EnabledCall

/-- Settles O7: the call is the only candidate (`candidates_eq_host`), so a step takes it under any choice and counts no tie. -/
theorem stepRunsTheDecodedCall : Obligations.StepRunsTheDecodedCall := by
  intro s h rest hp hnow hnone
  have only : s.candidates = [.host] := candidates_eq_host hp hnow hnone
  rw [step, stepWith_of_single only, takeStep_host hp, only, tiesAfter]

/-! ### Holes (R67) -/

@[simp] theorem exec_hole (x : Word) (s : State) : exec (.hole x) s = .next s := rfl

@[simp] theorem exec_holeGen1 (x : Word) (s : State) : exec (.holeGen1 x) s = .next s := rfl

/-- Settles O36: by the address map (O1) a hole's word decodes to a hole instruction of the variant, and both leave the state
(`exec_hole`, `exec_holeGen1`). -/
theorem holeWritesChangeNothing : Obligations.HoleWritesChangeNothing := by
  intro s a x
  obtain ⟨-, -, -, -, -, word20, word21, words22and23, -⟩ := addressMapDecodesEveryWord s.cfg.variant a x
  refine ⟨?write, exec_hole x s, fun _ => exec_holeGen1 x s⟩
  case write =>
    rintro (h | h | ⟨hvariant, h | h⟩)
    · rw [words22and23 (.inl h), exec_hole]
    · rw [words22and23 (.inr h), exec_hole]
    · rw [word20 h, if_neg hvariant, exec_holeGen1]
    · rw [word21 h, if_neg hvariant, exec_holeGen1]

end Sys2Proof.Machine

/-! Proofs for 41_crtc.md: the fallbacks of the bit depth (R68) and the pixel clock (R71), the geometry record (R73, R74, R76), and the
CRTC and control writes (R78, R79, R96). -/

namespace Sys2Proof.Machine

/-! ### The geometry change as the rules state it (R78) -/

/-- The video timer's fire time after a geometry change: a line time on, or `never` (R76, R78). -/
theorem geometry_tLine_map_add (c : Config) (crtc : Crtc) (ctrl : Word) (now : Time) :
    (geometry c crtc ctrl).tLine.map (now + ·) =
      if (geometry c crtc ctrl).valid then
        some (now + ((geometry c crtc ctrl).ht : Rat) / ((geometry c crtc ctrl).fPix : Rat))
      else none := by
  rw [geometry_tLine]
  cases (geometry c crtc ctrl).valid <;> rfl

/-- `geo_update` when the geometry `g` of the registers is not the cached one. -/
theorem geoUpdate_of_changed {s : State} {g : Geo} (hg : g = geometry s.cfg s.crtc s.ctrl) (hne : g ≠ s.geo) :
    s.geoUpdate =
      { s with
        geo := g
        history := s.history ++ [(s.now, .resChange g)]
        vline := if g.valid then s.vline % g.vt else 0
        dueVideo := if g.valid then some (s.now + (g.ht : Rat) / (g.fPix : Rat)) else none } := by
  subst hg
  obtain ⟨heq, -⟩ | ⟨-, hupdate⟩ := geoUpdate_cases s
  · exact absurd heq hne
  · rw [hupdate, geometry_tLine_map_add]

/-! ### CRTC writes (R79) -/

theorem crtcWrite_crtc (s : State) (k : CrtcSlot) (x : Word) :
    (s.crtcWrite k x).crtc = s.crtc.set k (crtcField s.cfg x) := by
  simp [State.crtcWrite]

theorem crtcWrite_get_same (s : State) (k : CrtcSlot) (x : Word) :
    ((s.crtcWrite k x).crtc.get k).toNat = x.toNat % 2 ^ s.cfg.crtcBits := by
  rw [crtcWrite_crtc, crtc_get_set_same, crtcField_toNat]

theorem crtcWrite_get_of_ne {k j : CrtcSlot} (h : j ≠ k) (s : State) (x : Word) :
    (s.crtcWrite k x).crtc.get j = s.crtc.get j := by
  rw [crtcWrite_crtc, crtc_get_set, if_neg h]

/-- A write that leaves the geometry as cached is its store alone. -/
theorem crtcWrite_of_unchanged {s : State} {k : CrtcSlot} {x : Word}
    (h : geometry s.cfg (s.crtc.set k (crtcField s.cfg x)) s.ctrl = s.geo) :
    s.crtcWrite k x = s.setCrtc k (crtcField s.cfg x) :=
  geoUpdate_of_exact h.symm

/-- Settles O23: the slot is stored, and `geo_update` either finds the cached geometry (`crtcWrite_of_unchanged`) or changes it
(`geoUpdate_of_changed`). -/
theorem crtcWriteStoresAndUpdatesTheGeometry : Obligations.CrtcWriteStoresAndUpdatesTheGeometry := by
  intro k x s
  refine ⟨_, _, exec_crtcInstrOf k x s, rfl, crtcWrite_get_same s k x, fun j hj => crtcWrite_get_of_ne hj s x, ?unchanged, ?changed⟩
  case unchanged =>
    rw [crtcWrite_crtc]
    exact crtcWrite_of_unchanged
  case changed =>
    rw [crtcWrite_crtc]
    exact geoUpdate_of_changed (s := s.setCrtc k (crtcField s.cfg x)) rfl

/-- Settles O24: `Geo()` reads no cursor slot (`geometry_set_cursor`), so an exact geometry stays exact and the write only stores. -/
theorem cursorSlotWritesOnlyStore : Obligations.CursorSlotWritesOnlyStore := by
  intro k x s hk hexact
  have cursor : k = .hcsr ∨ k = .hcer ∨ k = .vcsr ∨ k = .vcer := by simpa using hk
  have onlyStores : s.crtcWrite k x = s.setCrtc k (crtcField s.cfg x) :=
    crtcWrite_of_unchanged (by rw [geometry_set_cursor _ _ _ _ _ cursor, hexact])
  refine ⟨_, exec_crtcInstrOf k x s, ?frame, crtcWrite_get_same s k x, fun j hj => crtcWrite_get_of_ne hj s x⟩
  case frame => rw [onlyStores]; rfl

/-! ### Control writes (R96) -/

theorem ctrlField_eq_and (v : Variant) (x : Word) :
    ctrlField v x = x &&& (if v = .gen2 then 0x14F#32 else 0x04F#32) := by
  cases v <;> rfl

@[simp] theorem ctrlWrite_ctrl (s : State) (x : Word) : (s.ctrlWrite x).ctrl = ctrlField s.cfg.variant x := by
  simp [State.ctrlWrite]

theorem exec_ctrl_of_gen2 {s : State} (h : s.cfg.variant = .gen2) (x : Word) :
    exec (.ctrl x) s = .next (s.ctrlWrite x).soundRefresh := by
  simp [exec, execCtrl, h]

/-- The sound timer after a control write: restarted or stopped by its period on GEN2, else as it was (R96, R118). -/
def State.dueSoundAfterCtrl (s : State) : Option Time :=
  if s.cfg.variant = .gen2 then
    if 0 < soundPeriod s.cfg s.sfr then some (s.now + soundPeriod s.cfg s.sfr) else none
  else s.dueSound

/-- A control write is the store with `geo_update`, and the sound timer. -/
theorem exec_ctrl (x : Word) (s : State) :
    exec (.ctrl x) s = .next { s.ctrlWrite x with dueSound := s.dueSoundAfterCtrl } := by
  by_cases hv : s.cfg.variant = .gen2
  · rw [exec_ctrl_of_gen2 hv, soundRefresh_eq]
    simp [State.ctrlWrite, State.dueSoundAfterCtrl, hv]
  · have kept : (s.ctrlWrite x).dueSound = s.dueSoundAfterCtrl := by simp [State.ctrlWrite, State.dueSoundAfterCtrl, hv]
    rw [exec_ctrl_of_ne_gen2 hv, ← kept]

/-- Settles O25: the instruction is `ctrlWrite` with the sound timer (`exec_ctrl`), and `geo_update` finds the cached geometry or
changes it, as for a CRTC write. -/
theorem controlWriteStoresAndUpdates : Obligations.ControlWriteStoresAndUpdates := by
  intro x s
  refine ⟨_, _, _, exec_ctrl x s, ?word, rfl, rfl, rfl, ?unchanged, ?changed⟩
  case word => exact (ctrlWrite_ctrl s x).trans (ctrlField_eq_and _ x)
  case unchanged =>
    intro h
    rw [ctrlWrite_ctrl] at h ⊢
    have onlyStores : s.ctrlWrite x = s.setCtrl (ctrlField s.cfg.variant x) := geoUpdate_of_exact h.symm
    rw [onlyStores]
    rfl
  case changed =>
    intro h
    rw [ctrlWrite_ctrl] at h ⊢
    rw [State.ctrlWrite, geoUpdate_of_changed (s := s.setCtrl (ctrlField s.cfg.variant x)) rfl h]
    rfl

/-! ### Bit depths (R68) -/

theorem bppBits_le_iff {b b' : Bpp} : bppBits b ≤ bppBits b' ↔ (bppLog b).val ≤ (bppLog b').val :=
  Nat.pow_le_pow_iff_right Nat.one_lt_two

theorem bppBits_lt_iff {b b' : Bpp} : bppBits b < bppBits b' ↔ (bppLog b).val < (bppLog b').val :=
  Nat.pow_lt_pow_iff_right Nat.one_lt_two

theorem bppDistance_pos {b b' : Bpp} (h : b ≠ b') : 0 < bppDistance b b' :=
  Nat.pos_of_ne_zero (mt bppDistance_eq_zero.mp h)

theorem bppBits_injective : Function.Injective bppBits := by
  intro b b'
  cases b <;> cases b' <;> decide

theorem bppBits_eq_iff {b b' : Bpp} : bppBits b = bppBits b' ↔ (bppLog b).val = (bppLog b').val :=
  Nat.pow_right_inj Nat.one_lt_two

/-- The nearest member: no other is nearer, and none as near is smaller. -/
theorem nearestBpp_spec {b r : Bpp} {set : List Bpp} (h : nearestBpp b set = some r) :
    ∀ b' ∈ set, bppDistance b r < bppDistance b b' ∨ bppDistance b r = bppDistance b b' ∧ bppBits r ≤ bppBits b' := by
  intro b' hb'
  have least := (leastBy_spec h).2 b' hb'
  have hr := (bppLog r).isLt
  have hlog := (bppLog b').isLt
  rw [bppBits_le_iff]
  omega

/-- An unsupported depth falls back to the nearest supported one. -/
theorem nearestBpp_eq_effectiveBpp {c : Config} {ctrl : Word} (hne : c.bppSet ≠ [])
    (h : bppOfCode (ctrlBppCode ctrl) ∉ c.bppSet) :
    nearestBpp (bppOfCode (ctrlBppCode ctrl)) c.bppSet = some (effectiveBpp c ctrl) := by
  obtain ⟨r, hr⟩ : ∃ r, nearestBpp (bppOfCode (ctrlBppCode ctrl)) c.bppSet = some r := leastBy_isSome _ hne
  simp [effectiveBpp, h, hr]

/-- The depth the control word's code stands for is the one of so many bits. -/
theorem eq_bppOfCode {b : Bpp} {w : Word} (h : bppBits b = 2 ^ (w.toNat / 4 % 4)) : b = bppOfCode (ctrlBppCode w) :=
  bppBits_injective (by rw [h, bppBits_bppOfCode, ctrlBppCode_toNat])

/-- Settles O27: a supported depth is at distance 0 from itself alone, and an unsupported one falls back (`nearestBpp_spec`). -/
theorem bitDepthFallsBackToTheNearest : Obligations.BitDepthFallsBackToTheNearest := by
  rintro c w b r hne hb rfl
  obtain rfl := eq_bppOfCode hb
  refine ⟨effectiveBpp_mem hne w, effectiveBpp_of_mem, ?nearest⟩
  case nearest =>
    by_cases hmem : bppOfCode (ctrlBppCode w) ∈ c.bppSet
    · intro b' _
      rw [effectiveBpp_of_mem hmem, bppDistance_self]
      by_cases hsame : bppOfCode (ctrlBppCode w) = b'
      · simp [← hsame]
      · exact .inl (bppDistance_pos hsame)
    · exact nearestBpp_spec (nearestBpp_eq_effectiveBpp hne hmem)

/-! ### The pixel clock (R71) -/

theorem pcsDistance_pos {s s' : BitVec 2} (h : s ≠ s') : 0 < pcsDistance s s' :=
  Nat.pos_of_ne_zero (mt pcsDistance_eq_zero.mp h)

/-- The order of R71 is the order of the keys. -/
theorem entryBefore_iff {b : Bpp} {p : BitVec 2} {e f : PixClkEntry} :
    EntryBefore b p e f ↔ pixClkKey b p e < pixClkKey b p f := by
  rw [pixClkKey_lt, EntryBefore, bppBits_lt_iff, bppBits_eq_iff]

/-- An entry for the depth and source themselves comes before every entry for others. -/
theorem entryBefore_of_exact {b : Bpp} {p : BitVec 2} {e f : PixClkEntry} (he : (e.bpp, e.pcs) = (b, p))
    (hf : (f.bpp, f.pcs) ≠ (b, p)) : EntryBefore b p e f := by
  obtain ⟨rfl, rfl⟩ := Prod.mk.inj he
  by_cases hbpp : e.bpp = f.bpp
  · have hpcs : e.pcs ≠ f.pcs := fun hpcs => hf (by rw [hbpp, hpcs])
    exact .inr ⟨by rw [hbpp], .inl (by simpa using pcsDistance_pos hpcs)⟩
  · exact .inl (by simpa using bppDistance_pos hbpp)

theorem pixelClock_of_empty {c : Config} (h : c.pixclk = []) (b : Bpp) (p : BitVec 2) : pixelClock c b p = 0 := by
  rw [pixelClock, h, leastBy]

/-- The clock of a table with an entry is the rate of one that no other comes before. -/
theorem exists_first_entry {c : Config} (h : c.pixclk ≠ []) (b : Bpp) (p : BitVec 2) :
    ∃ e ∈ c.pixclk, pixelClock c b p = e.hz ∧ ∀ f ∈ c.pixclk, ¬ EntryBefore b p f e := by
  obtain ⟨e, he⟩ := leastBy_isSome (pixClkKey b p) h
  obtain ⟨hmem, hleast⟩ := leastBy_spec he
  refine ⟨e, hmem, by rw [pixelClock, he], fun f hf hbefore => ?_⟩
  exact (hleast f hf).not_gt (entryBefore_iff.mp hbefore)

/-- Settles O28: the first entry in R71's order is the exact one where the table has it (`entryBefore_of_exact`). -/
theorem pixelClockFallsBackToTheNearest : Obligations.PixelClockFallsBackToTheNearest := by
  intro c b p
  refine ⟨fun h => pixelClock_of_empty h b p, fun h => exists_first_entry h b p, ?exact⟩
  case exact =>
    intro hz hnodup hmem
    obtain ⟨e, he, hclock, hfirst⟩ := exists_first_entry (List.ne_nil_of_mem hmem) b p
    have sameKeys : (e.bpp, e.pcs) = (b, p) := by
      by_contra hother
      exact hfirst _ hmem (entryBefore_of_exact rfl hother)
    have sameEntry : e = ⟨b, p, hz⟩ := List.inj_on_of_nodup_map hnodup he hmem sameKeys
    rw [hclock, sameEntry]

/-! ### The geometry record (R73, R74, R76) -/

theorem ctrlInterlace_iff (w : Word) : ctrlInterlace w = true ↔ w.toNat / 64 % 2 = 1 := by
  simp [ctrlInterlace, BitVec.getLsbD, Nat.testBit_eq_decide_div_mod_eq]

theorem geometry_tFrame (c : Config) (crtc : Crtc) (ctrl : Word) :
    (geometry c crtc ctrl).tFrame =
      if (geometry c crtc ctrl).valid then
        some (((geometry c crtc ctrl).vt : Rat) * (((geometry c crtc ctrl).ht : Rat) / ((geometry c crtc ctrl).fPix : Rat)))
      else none := rfl

/-- Settles O26: each field is the record's own, the control word's fields as numbers, and the times by `valid`. -/
theorem geometryRecordOfTheRegisters : Obligations.GeometryRecordOfTheRegisters := by
  rintro c r w g rfl
  refine ⟨rfl, rfl, ctrlPcs_toNat w, rfl, ctrlInterlace_iff w, rfl, rfl, rfl, rfl, rfl, rfl, rfl, rfl, rfl, rfl, rfl, rfl, rfl, rfl,
    rfl, rfl, geometry_valid_iff c r w, ?times, ?noTimes⟩
  case times =>
    intro hvalid
    simp [geometry_tLine, geometry_tFrame, Geo.pixelTime, Geo.frameRate, hvalid]
  case noTimes =>
    intro hinvalid
    simp [geometry_tLine, geometry_tFrame, hinvalid]

end Sys2Proof.Machine

/-! Proofs for 42_palette.md: colour conversion (R97 to R99), the regions of the palette table (R101), the palette writes (R102 to
R105), and the next pixel drawn from a written entry (R150). -/

namespace Sys2Proof.Machine

/-! ### Colour conversion (R97, R98, R99) -/

theorem expand4_toNat (n : BitVec 4) : (expand4 n).toNat = n.toNat * 17 := by
  have fits : n.toNat * 17 < 2 ^ 8 := by omega
  rw [expand4, BitVec.toNat_ofNat, Nat.mod_eq_of_lt fits]

theorem pal4Convert_colour4 (x : Word) : Colour4 (pal4Convert x) x := by
  simp [Colour4, pal4Convert, expand4_toNat, red4, green4, blue4, Nat.shiftRight_eq_div_pow]

theorem pal8Convert_colour8 (x : Word) : Colour8 (pal8Convert x) x := by
  simp [Colour8, pal8Convert, red8, green8, blue8, Nat.shiftRight_eq_div_pow]

/-- Below the lowest bit that `a` may have set, `or` adds. -/
theorem or_eq_add_of_dvd {a b k : Nat} (ha : 2 ^ k ∣ a) (hb : b < 2 ^ k) : a ||| b = a + b := by
  obtain ⟨m, rfl⟩ := ha
  exact (Nat.two_pow_add_eq_or_of_lt hb m).symm

theorem setWidth_shiftLeft_toNat (y : Byte) {k : Nat} (hk : k ≤ 24) :
    (y.setWidth 32 <<< k).toNat = y.toNat * 2 ^ k := by
  have fits : y.toNat * 2 ^ k < 2 ^ 32 := calc
    y.toNat * 2 ^ k < 2 ^ 8 * 2 ^ k := Nat.mul_lt_mul_of_pos_right y.isLt (Nat.two_pow_pos k)
    _ = 2 ^ (8 + k) := (Nat.pow_add 2 8 k).symm
    _ ≤ 2 ^ 32 := Nat.pow_le_pow_right (by decide) (by omega)
  rw [BitVec.toNat_shiftLeft, BitVec.toNat_setWidth_of_le (by decide), Nat.shiftLeft_eq, Nat.mod_eq_of_lt fits]

/-- The four bytes of a pixel do not overlap, so that each `or` of R99 is a sum. -/
theorem packPixel_toNat (c : Rgb) :
    (packPixel c).toNat = 0xFF000000 + c.r.toNat * 65536 + c.g.toNat * 256 + c.b.toNat := by
  have red : 0xFF000000 ||| c.r.toNat * 65536 = 0xFF000000 + c.r.toNat * 65536 :=
    or_eq_add_of_dvd (k := 24) (by omega) (by omega)
  have green : (0xFF000000 + c.r.toNat * 65536) ||| c.g.toNat * 256 = 0xFF000000 + c.r.toNat * 65536 + c.g.toNat * 256 :=
    or_eq_add_of_dvd (k := 16) (by omega) (by omega)
  have blue : (0xFF000000 + c.r.toNat * 65536 + c.g.toNat * 256) ||| c.b.toNat =
      0xFF000000 + c.r.toNat * 65536 + c.g.toNat * 256 + c.b.toNat :=
    or_eq_add_of_dvd (k := 8) (by omega) (by omega)
  calc (packPixel c).toNat
      = 0xFF000000 ||| c.r.toNat * 65536 ||| c.g.toNat * 256 ||| c.b.toNat := by
        rw [packPixel, BitVec.toNat_or, BitVec.toNat_or, BitVec.toNat_or, setWidth_shiftLeft_toNat c.r (by decide),
          setWidth_shiftLeft_toNat c.g (by decide), BitVec.toNat_setWidth_of_le (by decide)]
        rfl
    _ = 0xFF000000 + c.r.toNat * 65536 + c.g.toNat * 256 + c.b.toNat := by rw [red, green, blue]

theorem lcdShape_eq (v : Variant) (c : Rgb) : lcdShape v c = if v = .gen1Lcd then Config.lcdShapeLcd c else c := by
  cases v <;> rfl

/-- Settles O39: the shaping is opaque and the packing (`packPixel_toNat`) holds of any colour. -/
theorem outputPixelPacksTheColour : Obligations.OutputPixelPacksTheColour := by
  rintro v c d rfl
  rw [toPixel, lcdShape_eq, packPixel_toNat]

/-! ### The regions of the palette table (R25, R101) -/

theorem mainBase_add (v : Variant) (n : Nat) : mainBase v + n = n := Nat.zero_add n

theorem borderBase_eq (v : Variant) : borderBase v = if v = .gen2 then 256 else 16 := by
  cases v <;> rfl

theorem cursorBase_eq (v : Variant) : cursorBase v = borderBase v + 1 := by
  cases v <;> rfl

theorem nPal_eq (v : Variant) : nPal v = borderBase v + 4 := by
  cases v <;> rfl

theorem mainBase_add_nMain (v : Variant) : mainBase v + nMain v = borderBase v := by
  cases v <;> rfl

/-- Each region ends at or before the end of the table. -/
theorem InRegion.lt_nPal {v : Variant} {e : Nat} {r : PalRegion} (h : InRegion v e r) : e < nPal v := by
  have mainEnd := mainBase_add_nMain v
  have cursorStart := cursorBase_eq v
  have tableEnd := nPal_eq v
  cases r <;> simp only [InRegion] at h <;> omega

/-- The regions follow one another, so that an entry lies in one of them only. -/
theorem InRegion.iff_eq {v : Variant} {e : Nat} {r : PalRegion} (h : InRegion v e r) (q : PalRegion) :
    InRegion v e q ↔ q = r := by
  have mainEnd := mainBase_add_nMain v
  have cursorStart := cursorBase_eq v
  refine ⟨fun hq => ?_, fun hqr => hqr ▸ h⟩
  cases q <;> cases r <;> simp only [InRegion, reduceCtorEq] at h hq ⊢ <;> omega

theorem inRegion_main_nibble (v : Variant) (n : BitVec 4) : InRegion v (mainBase v + n.toNat) .main := by
  have sixteen : 16 ≤ nMain v := by cases v <;> decide
  exact ⟨Nat.le_add_right _ _, Nat.add_lt_add_left (n.isLt.trans_le sixteen) _⟩

/-- On GEN2 the latch reaches the main region only (R104). -/
theorem inRegion_main_latch {v : Variant} (hv : v = .gen2) (b : Byte) : InRegion v (mainBase v + b.toNat) .main := by
  subst hv
  exact ⟨Nat.le_add_right _ _, Nat.add_lt_add_left b.isLt _⟩

theorem inRegion_cursor (v : Variant) {k : Nat} (hk : k < 3) : InRegion v (cursorBase v + k) .cursor :=
  ⟨Nat.le_add_right _ _, Nat.add_lt_add_left hk _⟩

/-! ### What the palette writes do to the state (R102 to R105) -/

/-- The cursor palette's slots are the border entry and the entries above it (R103). -/
theorem curpalWrite_eq (s : State) (ci : Nat) (x : Word) :
    s.curpalWrite ci x = s.setPal (borderBase s.cfg.variant + ci) (pal4Convert x) := by
  cases ci with
  | zero => rfl
  | succ k =>
    have entry : cursorBase s.cfg.variant + (k + 1) - 1 = borderBase s.cfg.variant + (k + 1) := by
      rw [cursorBase_eq]
      omega
    rw [State.curpalWrite, if_neg k.succ_ne_zero, entry]

theorem exec_pal8_of_gen2 {s : State} (h : s.cfg.variant = .gen2) (x : Word) :
    exec (.pal8 x) s = .next (s.pal8Write x) := by
  simp [exec, execPal8, h]

theorem exec_palidx_of_gen2 {s : State} (h : s.cfg.variant = .gen2) (x : Word) :
    exec (.palidx x) s = .next (s.setPalidx (palidxField x)) := by
  simp [exec, execPalidx, h]

theorem exec_pal8_of_ne_gen2 {s : State} (h : s.cfg.variant ≠ .gen2) (x : Word) : exec (.pal8 x) s = .next s := by
  cases hv : s.cfg.variant with
  | gen1 => simp [exec, execPal8, hv]
  | gen1Lcd => simp [exec, execPal8, hv]
  | gen2 => exact absurd hv h

theorem exec_palidx_of_ne_gen2 {s : State} (h : s.cfg.variant ≠ .gen2) (x : Word) : exec (.palidx x) s = .next s := by
  cases hv : s.cfg.variant with
  | gen1 => simp [exec, execPalidx, hv]
  | gen1Lcd => simp [exec, execPalidx, hv]
  | gen2 => exact absurd hv h

/-- Settles O35: the latch is the value's low byte. -/
theorem paletteIndexWriteSetsTheLatch : Obligations.PaletteIndexWriteSetsTheLatch := by
  intro x s hv
  have low : (palidxField x).toNat = x.toNat % 256 := by simp [palidxField]
  exact ⟨_, exec_palidx_of_gen2 hv x, low, rfl⟩

/-- Settles O37: each instruction on the variants that do not have it. -/
theorem instructionsOfAnotherVariantAreHoles : Obligations.InstructionsOfAnotherVariantAreHoles :=
  fun x s => ⟨fun hv => ⟨exec_pal8_of_ne_gen2 hv x, exec_palidx_of_ne_gen2 hv x⟩, fun _ => exec_holeGen1 x s⟩

/-! ### Each write stores its entry and keeps the others -/

theorem setPal_getElem?_same {s : State} {e : Nat} (h : e < s.pal.length) (c : Rgb) : (s.setPal e c).pal[e]? = some c :=
  List.getElem?_set_self h

theorem setPal_getElem?_ne (s : State) {e j : Nat} (h : j ≠ e) (c : Rgb) : (s.setPal e c).pal[j]? = s.pal[j]? :=
  List.getElem?_set_ne h.symm

/-- Settles O32: entry i is in the main region (`inRegion_main_nibble`), hence in the table. -/
theorem mainPaletteWriteStoresItsEntry : Obligations.MainPaletteWriteStoresItsEntry := by
  intro i x s hsize
  have inMain := inRegion_main_nibble s.cfg.variant i
  rw [mainBase_add] at inMain
  exact ⟨s.setPal i.toNat (pal4Convert x), _, by rw [exec_palMain, State.palMainWrite, mainBase_add],
    setPal_getElem?_same (hsize ▸ inMain.lt_nPal) _, pal4Convert_colour4 x, fun j hj => setPal_getElem?_ne s hj _, rfl⟩

/-- A border or cursor write stores the border entry or one of the three above it, by its slot (R103). -/
theorem exec_cursorSlot {n : Nat} {i : Instr} {x : Word}
    (h : (n, i) ∈ [(0, Instr.border x), (1, .curpal1 x), (2, .curpal2 x), (3, .curpal3 x)]) (s : State) :
    n < 4 ∧ exec i s = .next (s.setPal (borderBase s.cfg.variant + n) (pal4Convert x)) := by
  rw [← curpalWrite_eq]
  simp only [List.mem_cons, List.not_mem_nil, or_false, Prod.mk.injEq] at h
  obtain ⟨rfl, rfl⟩ | ⟨rfl, rfl⟩ | ⟨rfl, rfl⟩ | ⟨rfl, rfl⟩ := h
  · exact ⟨by decide, rfl⟩
  · exact ⟨by decide, rfl⟩
  · exact ⟨by decide, rfl⟩
  · exact ⟨by decide, rfl⟩

/-- Settles O33: the slot's entry (`exec_cursorSlot`) is one of the table's last four (`nPal_eq`). -/
theorem borderAndCursorWritesStoreTheirEntry : Obligations.BorderAndCursorWritesStoreTheirEntry := by
  intro n i x s hslot hsize
  obtain ⟨hn, hexec⟩ := exec_cursorSlot hslot s
  have inTable : borderBase s.cfg.variant + n < s.pal.length := by
    rw [hsize, nPal_eq]
    omega
  exact ⟨_, _, _, by rw [borderBase_eq], hexec, setPal_getElem?_same inTable _, pal4Convert_colour4 x,
    fun j hj => setPal_getElem?_ne s hj _, rfl⟩

/-- Settles O34: the latch's entry is in the main region of GEN2 (`inRegion_main_latch`), and the latch is a byte, which wraps. -/
theorem directPaletteWriteStoresAndAdvances : Obligations.DirectPaletteWriteStoresAndAdvances := by
  intro x s hv hsize
  have inMain := inRegion_main_latch hv s.palidx
  rw [mainBase_add] at inMain
  exact ⟨(s.setPal s.palidx.toNat (pal8Convert x)).setPalidx (s.palidx + 1), _,
    by rw [exec_pal8_of_gen2 hv, State.pal8Write, mainBase_add], setPal_getElem?_same (hsize ▸ inMain.lt_nPal) _,
    pal8Convert_colour8 x, fun j hj => setPal_getElem?_ne s hj _, BitVec.toNat_add s.palidx 1, rfl⟩

/-- Settles O38: each row's entry is in that row's region, which lies in the table (`InRegion.lt_nPal`) apart from the other two
(`InRegion.iff_eq`). -/
theorem paletteWriteLandsInOneRegion : Obligations.PaletteWriteLandsInOneRegion := by
  intro i e r x s hsize hwf hrow
  suffices lands : ∃ t c, exec i s = .next t ∧ t.pal = s.pal.set e c ∧ InRegion s.cfg.variant e r by
    obtain ⟨t, c, hexec, hpal, hr⟩ := lands
    exact ⟨t, c, hexec, hpal, hsize ▸ hr.lt_nPal, hr.iff_eq⟩
  simp only [List.mem_cons, List.not_mem_nil, or_false, Prod.mk.injEq] at hrow
  obtain ⟨n, rfl, rfl, rfl⟩ | ⟨rfl, rfl, rfl⟩ | ⟨rfl, rfl, rfl⟩ | ⟨rfl, rfl, rfl⟩ | ⟨rfl, rfl, rfl⟩ | ⟨rfl, rfl, rfl⟩ := hrow
  · exact ⟨_, _, exec_palMain n x s, rfl, inRegion_main_nibble _ n⟩
  · exact ⟨_, _, rfl, rfl, rfl⟩
  · exact ⟨_, _, rfl, rfl, inRegion_cursor _ (k := 0) (by decide)⟩
  · exact ⟨_, _, rfl, rfl, inRegion_cursor _ (k := 1) (by decide)⟩
  · exact ⟨_, _, rfl, rfl, inRegion_cursor _ (k := 2) (by decide)⟩
  · have hv : s.cfg.variant = .gen2 := eq_of_beq hwf
    exact ⟨_, _, exec_pal8_of_gen2 hv x, rfl, inRegion_main_latch hv s.palidx⟩

/-! ### The next pixel (R100, R150) -/

/-! The palette has no part in where the cursor and the display window are, nor in a pixel's index. -/

@[simp] theorem setPal_cursorIndex (s : State) (e : Nat) (c : Rgb) (x y : Nat) :
    (s.setPal e c).cursorIndex x y = s.cursorIndex x y := rfl

@[simp] theorem setPal_inDisplay (s : State) (e : Nat) (c : Rgb) (x y : Nat) :
    (s.setPal e c).inDisplay x y = s.inDisplay x y := rfl

@[simp] theorem setPal_mainIndex (s : State) (e : Nat) (c : Rgb) (x y : Nat) :
    (s.setPal e c).mainIndex x y = s.mainIndex x y := rfl

theorem mainColour_of_mainMap {s : State} {idx : Byte} {e : Nat} (h : s.cfg.mainMap[idx.toNat]? = some e) :
    s.mainColour idx = s.palRead (mainBase s.cfg.variant + e) := by
  obtain ⟨_, hmap⟩ := Vector.getElem?_eq_some_iff.mp h
  rw [State.mainColour, hmap]

/-- Settles O47: the pixel reads the palette at the written entry, and nothing else it depends on has changed. -/
theorem paletteWriteShowsInTheNextPixel : Obligations.PaletteWriteShowsInTheNextPixel := by
  intro i v s x y hsize hcursor hdisplay hmap
  have inTable : mainBase s.cfg.variant + i.toNat < s.pal.length := hsize ▸ (inRegion_main_nibble s.cfg.variant i).lt_nPal
  refine ⟨_, _, exec_palMain i v s, pal4Convert_colour4 v, ?pixel⟩
  case pixel =>
    rw [State.palMainWrite, pixel_of_display (by simpa using hcursor) (by simpa using hdisplay), setPal_mainIndex,
      mainColour_of_mainMap (by simpa using hmap), setPal_cfg, setPal_palRead_same _ _ _ inTable]

end Sys2Proof.Machine

/-! Proofs for 43_compositor.md: the buffer writes (R106, R107), packed pixels (R108), the cursor index (R110), the pixel (R111), and
the surface `render` answers (R112). -/

namespace Sys2Proof.Machine

/-! ### The buffer writes (R106, R107) -/

theorem exec_writeVram (o b : Nat) (s : State) : exec (.writeVram o b) s = .next (s.vramWrite o (byteArg b)) := rfl

theorem exec_writeCram (o b : Nat) (s : State) : exec (.writeCram o b) s = .next (s.cramWrite o (byteArg b)) := rfl

theorem byteArg_toNat (b : Nat) : (byteArg b).toNat = b % 256 := BitVec.toNat_ofNat b 8

/-- Settles O40: reading after the write (`vramRead_vramWrite`), at an offset that wraps onto the written one and at another. -/
theorem vramWriteStoresOneByte : Obligations.VramWriteStoresOneByte := by
  intro o b s hwf
  refine ⟨_, exec_writeVram o b s, ?written, ?others, rfl⟩
  case written =>
    intro a ha
    rw [vramRead_vramWrite hwf, if_pos ha, byteArg_toNat]
  case others =>
    intro a ha
    rw [vramRead_vramWrite hwf, if_neg ha]

/-- Settles O41: reading after the write (`cramRead_cramWrite`), at an offset that wraps onto the written one and at another. -/
theorem cramWriteStoresOneByte : Obligations.CramWriteStoresOneByte := by
  intro o b s hwf
  refine ⟨_, exec_writeCram o b s, ?written, ?others, rfl⟩
  case written =>
    intro a ha
    rw [cramRead_cramWrite hwf, if_pos ha, byteArg_toNat]
  case others =>
    intro a ha
    rw [cramRead_cramWrite hwf, if_neg ha]

/-! ### Packed pixels (R108) -/

theorem bppBits_le_eight (d : Bpp) : bppBits d ≤ 8 := by cases d <;> decide

/-- Settles O42: each buffer's pixel is taken from its byte by `unpackByte_toNat`. -/
theorem unpackTakesTheTopPixelFirst : Obligations.UnpackTakesTheTopPixelFirst := by
  rintro s p d b rfl
  exact ⟨unpackByte_toNat _ _ _ (bppBits_le_eight d), unpackByte_toNat _ _ _ (bppBits_le_eight d)⟩

/-! ### The cursor index (R110) -/

/-- Pixel `n` of the cursor buffer: four pixels to a byte, the first in the top two bits. -/
theorem unpackCram_two_toNat (s : State) (n : Nat) :
    (s.unpackCram n 2).toNat = (s.cramRead (n / 4)).toNat / 2 ^ (6 - 2 * (n % 4)) % 4 := by
  have byte : n * 2 / 8 = n / 4 := by omega
  have shift : 8 - 2 - n * 2 % 8 = 6 - 2 * (n % 4) := by omega
  rw [State.unpackCram, unpackByte_toNat _ _ _ (by decide), byte, shift]
  rfl

theorem cursorIndex_of_disabled {s : State} (h : ¬ s.crtc.vcsr.toNat < s.crtc.vcer.toNat) (x y : Nat) :
    s.cursorIndex x y = 0 :=
  cursorIndex_of_off fun hon => h hon.1

/-- Settles O43: off the cursor `cursorIndex_of_off`, on it `cursorIndex_of_on` and the two bits of its pixel. -/
theorem cursorIndexReadsItsTwoBits : Obligations.CursorIndexReadsItsTwoBits := by
  rintro s x y hcs n rfl rfl
  refine ⟨?disabled, ?off, ?on⟩
  case disabled => exact fun h => cursorIndex_of_disabled h x y
  case off => exact fun h => cursorIndex_of_off fun hon => h hon.2
  case on =>
    intro htop hbottom hleft hright
    rw [cursorIndex_of_on htop hbottom hleft hright, unpackCram_two_toNat]
    rfl

/-! ### The pixel (R100, R111) -/

theorem cursorColour_eq (s : State) (ci : Byte) :
    s.cursorColour ci = s.palRead (borderBase s.cfg.variant + 1 + ci.toNat - 1) := by
  rw [State.cursorColour, cursorBase_eq]

theorem tableOf_getElem? {α : Type} {n i : Nat} (f : Nat → α) (h : i < n) : (tableOf n f)[i]? = some (f i) := by
  simp [tableOf, h]

theorem mainMapEntry_eq (v : Variant) (n : Nat) : mainMapEntry v n = if v = .gen2 then n else n % 16 := by
  cases v <;> rfl

/-- Settles O44, a clause for each case of R111; every index has an entry in the map, since the map has one for each byte. -/
theorem pixelIsCursorThenImageThenBorder : Obligations.PixelIsCursorThenImageThenBorder := by
  refine ⟨?pixel, ?defaultMap⟩
  case pixel =>
    intro s x y b shown hb hshown
    rw [← borderBase_eq] at hb
    rw [← inDisplay_iff] at hshown
    subst hb
    refine ⟨?cursor, ?image, ?border⟩
    case cursor =>
      intro hcursor
      rw [pixel_of_cursor hcursor, cursorColour_eq]
    case image =>
      intro hzero hin
      have hmap := Vector.getElem?_eq_getElem (xs := s.cfg.mainMap) (s.mainIndex x y).isLt
      refine ⟨s.mainIndex x y, _, rfl, hmap, ?_⟩
      rw [pixel_of_display hzero (hshown.mp hin), mainColour_of_mainMap hmap, mainBase_add]
    case border =>
      intro hzero hout
      have houtside : s.inDisplay x y = false := Bool.eq_false_iff.mpr (mt hshown.mpr hout)
      rw [pixel_of_border hzero houtside, State.borderColour]
  case defaultMap =>
    intro v idx
    rw [← mainMapEntry_eq]
    exact tableOf_getElem? _ idx.isLt

/-! The display window, the main image and the border come from the cached geometry, the buffers and the palette, not from the slots. -/

@[simp] theorem setCrtc_inDisplay (s : State) (k : CrtcSlot) (w : Word) (x y : Nat) :
    (s.setCrtc k w).inDisplay x y = s.inDisplay x y := rfl

@[simp] theorem setCrtc_mainColour (s : State) (k : CrtcSlot) (w : Word) (idx : Byte) :
    (s.setCrtc k w).mainColour idx = s.mainColour idx := rfl

@[simp] theorem setCrtc_mainIndex (s : State) (k : CrtcSlot) (w : Word) (x y : Nat) :
    (s.setCrtc k w).mainIndex x y = s.mainIndex x y := rfl

@[simp] theorem setCrtc_borderColour (s : State) (k : CrtcSlot) (w : Word) :
    (s.setCrtc k w).borderColour = s.borderColour := rfl

/-- With the cursor's end set to its start the cursor is disabled (R30). -/
theorem cursorIndex_setCrtc_vcer_vcsr (s : State) (x y : Nat) : (s.setCrtc .vcer s.crtc.vcsr).cursorIndex x y = 0 :=
  cursorIndex_of_disabled (Nat.lt_irrefl s.crtc.vcsr.toNat) x y

/-- Settles O45: both cursor indices are 0, and what lies beneath does not depend on the cursor's end. -/
theorem cursorIndexZeroNeverObscures : Obligations.CursorIndexZeroNeverObscures := by
  intro s x y hzero
  have hdisabled := cursorIndex_setCrtc_vcer_vcsr s x y
  change s.pixel x y = (s.setCrtc .vcer s.crtc.vcsr).pixel x y
  by_cases hdisplay : s.inDisplay x y = true
  · rw [pixel_of_display hzero hdisplay, pixel_of_display hdisabled (by simpa using hdisplay)]
    simp
  · rw [Bool.not_eq_true] at hdisplay
    rw [pixel_of_border hzero hdisplay, pixel_of_border hdisabled (by simpa using hdisplay)]
    simp

/-! ### Render (R112) -/

theorem exec_render (sf : Surface) (clip : Clip) (s : State) :
    exec (.render sf clip) s = .next (s.answer (.surface (s.renderSurface sf clip))) := rfl

theorem renderSurface_wf (s : State) {sf : Surface} (clip : Clip) (h : sf.wf = true) : (s.renderSurface sf clip).wf = true := by
  simpa [Surface.wf, State.renderSurface] using h

/-- A clip that covers the surface has every pixel of it in it (R148). -/
theorem inClip_of_duty {sf : Surface} {clip : Clip} (h : DutyWholeSurface sf clip) {x y : Nat} (hx : x < sf.width)
    (hy : y < sf.height) : inClip sf clip x y = true := by
  obtain ⟨hleft, htop, hright, hbottom⟩ := h
  rw [inClip_iff]
  omega

/-- Settles O46: `renderSurface_pixel` for a pixel of the clip, for one out of it, and for every pixel of a clip that covers. -/
theorem renderRedrawsExactlyTheClip : Obligations.RenderRedrawsExactlyTheClip := by
  intro sf clip s hwf
  refine ⟨_, s.renderSurface sf clip, exec_render sf clip s, rfl, rfl, rfl, renderSurface_wf s clip hwf, ?inside, ?outside, ?whole⟩
  case inside =>
    intro x y hx hy hleft hright htop hbottom
    have hin : inClip sf clip x y = true := (inClip_iff sf clip x y).mpr ⟨hleft, hright, htop, hbottom⟩
    rw [renderSurface_pixel s clip hwf hx hy, if_pos hin]
  case outside =>
    intro x y hx hy hout
    rw [renderSurface_pixel s clip hwf hx hy, if_neg (mt (inClip_iff sf clip x y).mp hout)]
  case whole =>
    intro hduty x y hx hy
    rw [renderSurface_pixel s clip hwf hx hy, if_pos (inClip_of_duty hduty hx hy)]

end Sys2Proof.Machine

/-! Proofs for 44_audio.md: the default tables (R113, R114), the stereo and sound-frequency writes (R117, R119), the sample calls
(R120, R121), and the two reads (R122, R133). -/

namespace Sys2Proof.Machine

/-! ### The audio instructions -/

theorem exec_sfr (x : Word) (s : State) : exec (.sfr x) s = .next (s.setSfr (sfrField x)).soundRefresh := rfl

theorem exec_writeDac (n x : Nat) (s : State) : exec (.writeDac n x) s =
    .next (s.setDac (channelArg n) ((s.dacRead (channelArg n)).withSample (lutRead s.cfg (byteArg x)))) := rfl

theorem exec_clearDac (n : Nat) (s : State) :
    exec (.clearDac n) s = .next (s.setDac (channelArg n) (s.dacRead (channelArg n)).cleared) := rfl

theorem exec_dacLevel (n : Nat) (s : State) : exec (.dacLevel n) s =
    .next (s.answer (.level (s.dacRead (channelArg n)).outL (s.dacRead (channelArg n)).outR)) := rfl

theorem exec_flybackR (s : State) : exec .flybackR s = .next (s.answer (.flyback s.flyback)) := rfl

/-! ### Operand fields and arguments as numbers (R51, R57, R59) -/

theorem channelArg_toNat (n : Nat) : (channelArg n).toNat = n % 8 := BitVec.toNat_ofNat n 3

theorem panField_toNat (x : Word) : (panField x).toNat = x.toNat % 8 := by simp [panField]

theorem sfrField_toNat (x : Word) : (sfrField x).toNat = x.toNat % 256 := by simp [sfrField]

/-! ### Stores to a channel (R28) -/

theorem dacRead_setDac_of_ne (s : State) {c j : BitVec 3} (h : j ≠ c) (d : DacChannel) :
    (s.setDac c d).dacRead j = s.dacRead j := by
  rw [dacRead_setDac, if_neg h]

/-- Storing the record a channel already holds. -/
@[simp] theorem setDac_dacRead (s : State) (c : BitVec 3) : s.setDac c (s.dacRead c) = s := by
  simp [State.setDac, State.dacRead]

/-! ### The stereo and sound-frequency writes (R117, R119) -/

/-- Settles O48: the store of `exec_stereo`, read at its channel and at another. -/
theorem stereoWriteSetsPanAndGains : Obligations.StereoWriteSetsPanAndGains := fun ch x s =>
  ⟨_, _, panField_toNat x, exec_stereo ch x s, dacRead_setDac_same s ch _, fun _ hc => dacRead_setDac_of_ne s hc _, rfl⟩

/-- The period of the stored latch, from the value written (R115, R119). -/
theorem soundPeriod_sfrField (c : Config) (x : Word) :
    soundPeriod c (sfrField x) = (c.soundDiv : Rat) * ((x.toNat % 256 : Nat) : Rat) * c.soundUnit := by
  rw [soundPeriod, sfrField_toNat]

/-- Settles O49: `sound_refresh` on the new latch, by the sign of its period. -/
theorem soundFrequencyWriteRestartsThePeriod : Obligations.SoundFrequencyWriteRestartsThePeriod := by
  intro x s
  refine ⟨_, _, exec_sfr x s, sfrField_toNat x, rfl, ?restarted, ?stopped, rfl⟩
  case restarted =>
    intro hpos
    rw [← soundPeriod_sfrField] at hpos ⊢
    exact soundRefresh_dueSound_of_pos hpos
  case stopped =>
    intro hpos
    rw [← soundPeriod_sfrField] at hpos
    exact soundRefresh_dueSound_of_not_pos hpos

/-! ### The sample calls (R120, R121) -/

@[simp] theorem withSample_withSample (d : DacChannel) (v : BitVec 16) : (d.withSample v).withSample v = d.withSample v := rfl

/-- The table entry a sample argument selects (R113, R120). -/
theorem lut_getElem?_sample (c : Config) (x : Nat) : c.lut[x % 256]? = some (lutRead c (byteArg x)) := by
  rw [← byteArg_toNat]
  exact Vector.getElem?_eq_getElem (byteArg x).isLt

/-- Settles O50: the store of `exec_writeDac`; done again, the gains it multiplies by are the same (`withSample_withSample`). -/
theorem sampleWriteLatchesTheLevels : Obligations.SampleWriteLatchesTheLevels := by
  intro n x s
  refine ⟨_, _, _, channelArg_toNat n, lut_getElem?_sample s.cfg x, exec_writeDac n x s, dacRead_setDac_same s _ _,
    fun _ hd => dacRead_setDac_of_ne s hd _, rfl, ?again⟩
  case again => rw [exec_writeDac, dacRead_setDac_same, setDac_cfg, withSample_withSample, setDac_setDac]

/-- A clear leaves a silent channel as it is. -/
theorem cleared_of_silent {d : DacChannel} (hactive : d.active = false) (hsilent : d.sample = 0 ∧ d.outL = 0 ∧ d.outR = 0) :
    d.cleared = d := by
  cases d
  obtain ⟨rfl, rfl, rfl⟩ := hsilent
  cases hactive
  rfl

/-- Settles O51: the store of `exec_clearDac`; under the invariant an inactive channel is silent, hence
stored as it was (`cleared_of_silent`). -/
theorem clearSilencesOneChannel : Obligations.ClearSilencesOneChannel := by
  intro n s
  refine ⟨_, _, channelArg_toNat n, exec_clearDac n s, dacRead_setDac_same s _ _, fun _ hd => dacRead_setDac_of_ne s hd _, rfl,
    ?inactive⟩
  case inactive =>
    intro hs hinactive
    rw [cleared_of_silent hinactive (hs.silent _ hinactive), setDac_dacRead]

/-! ### The reads (R122, R133) -/

/-- Settles O52: each read is `State.answer`. -/
theorem readsAnswerAndChangeNothing : Obligations.ReadsAnswerAndChangeNothing :=
  fun n s => ⟨⟨_, channelArg_toNat n, exec_dacLevel n s⟩, exec_flybackR s⟩

/-! ### The default tables (R113, R114) -/

theorem tableOf_getElem {α : Type} {n i : Nat} (f : Nat → α) (h : i < n) : (tableOf n f)[i] = f i := by
  simp [tableOf]

theorem lutRead_default (v : Variant) (x : Byte) : lutRead (defaultConfig v) x = lutEntry x := by
  rw [lutRead, defaultConfig, tableOf_getElem, BitVec.ofNat_toNat, BitVec.setWidth_eq]

/-- The magnitude by chord and point as numbers. -/
theorem lutMagnitude_eq (x : Byte) : lutMagnitude x = (16 + x.toNat / 2 % 16) * 2 ^ (x.toNat / 32) - 16 := by
  have chord : x.toNat / 32 % 8 = x.toNat / 32 := by omega
  simp [lutMagnitude, Nat.shiftRight_eq_div_pow, Nat.shiftLeft_eq, chord]

/-- The greatest magnitude is that of chord 7 and point 15. -/
theorem lutMagnitude_le (x : Byte) : lutMagnitude x ≤ 3952 := by
  have scale : 2 ^ (x.toNat / 32) ≤ 2 ^ 7 := Nat.pow_le_pow_right (by decide) (by omega)
  have point : 16 + x.toNat / 2 % 16 ≤ 31 := by omega
  have product := Nat.mul_le_mul point scale
  rw [lutMagnitude_eq]
  omega

/-- Eight times a magnitude fits in 16 bits with its sign (`lutMagnitude_le`), so the entry is the exact value. -/
theorem lutEntry_toInt (x : Byte) :
    (lutEntry x).toInt = 8 * (if x.toNat % 2 = 1 then -(lutMagnitude x : Int) else lutMagnitude x) := by
  have bound := lutMagnitude_le x
  have sign : x.getLsbD 0 = decide (x.toNat % 2 = 1) := Nat.testBit_zero x.toNat
  rw [lutEntry, sign]
  by_cases odd : x.toNat % 2 = 1
  · simp only [odd, decide_true, if_true]
    exact BitVec.toInt_ofInt_eq_self (by decide) (by omega) (by omega)
  · simp only [odd, decide_false, if_false]
    exact BitVec.toInt_ofInt_eq_self (by decide) (by omega) (by omega)

theorem panL_default (v : Variant) (p : BitVec 3) : (defaultConfig v).panL[p.toNat]'p.isLt = panLEntry p.toNat :=
  tableOf_getElem panLEntry p.isLt

theorem panR_default (v : Variant) (p : BitVec 3) : (defaultConfig v).panR[p.toNat]'p.isLt = panREntry p.toNat :=
  tableOf_getElem panREntry p.isLt

/-- A pan moves gain from one side to the other and keeps the sum. -/
theorem panLEntry_add_panREntry (p : Nat) : panLEntry p + panREntry p = 2 := by
  unfold panLEntry panREntry
  split
  · norm_num
  · ring

/-- Settles O53, a clause for each table; position 0 is apart from the formulas, and the sum does not depend on the position
(`panLEntry_add_panREntry`). -/
theorem defaultLutAndPanTables : Obligations.DefaultLutAndPanTables := by
  intro v
  refine ⟨?lut, ?pan, panL_default v 0, panR_default v 0, ?sum⟩
  case lut =>
    intro x
    rw [lutRead_default, lutEntry_toInt, lutMagnitude_eq]
  case pan =>
    intro p hp
    have hne : p.toNat ≠ 0 := fun h => hp (BitVec.eq_of_toNat_eq h)
    exact ⟨(panL_default v p).trans (if_neg hne), (panR_default v p).trans (if_neg hne)⟩
  case sum =>
    intro p
    rw [panL_default, panR_default, panLEntry_add_panREntry]

end Sys2Proof.Machine

/-! Proofs for 45_scheduler.md: the invariant is kept by every step (R126), the step and the step relation (R125, R127), the runs of a
host program (R128), and the timer fires (R131, R132). -/

namespace Sys2Proof.Machine

/-! ### The pending fire times (R33, R125) -/

theorem noneDueBefore_iff {s : State} {t : Time} : NoneDueBefore s t ↔ ∀ k d, s.due k = some d → t ≤ d := by
  refine ⟨fun ⟨hvideo, hsound⟩ k => ?_, fun h => ⟨h .video, h .sound⟩⟩
  cases k with
  | video => exact hvideo
  | sound => exact hsound

/-- There are two timers (R123). -/
theorem TimerKind.eq_or_eq {j k : TimerKind} (h : j ≠ k) (i : TimerKind) : i = j ∨ i = k := by
  revert h
  cases i <;> cases j <;> cases k <;> decide

/-- Where a timer is due before `t`, the first of the timers is too. -/
theorem exists_first_due {s : State} {t : Time} (h : ¬ NoneDueBefore s t) :
    ∃ k d, s.due k = some d ∧ d < t ∧ NoneDueBefore s d := by
  simp only [noneDueBefore_iff, not_forall, not_le] at h ⊢
  obtain ⟨k, d, hd, hlt⟩ := h
  by_cases hfirst : ∀ j e, s.due j = some e → d ≤ e
  · exact ⟨k, d, hd, hlt, hfirst⟩
  · simp only [not_forall, not_le] at hfirst
    obtain ⟨j, e, he, hed⟩ := hfirst
    refine ⟨j, e, he, hed.trans hlt, fun i f hf => ?_⟩
    have hjk : j ≠ k := by
      rintro rfl
      exact hed.ne (Option.some.inj (he.symm.trans hd))
    obtain rfl | rfl := TimerKind.eq_or_eq hjk i
    · exact (Option.some.inj (he.symm.trans hf)).le
    · exact hed.le.trans_eq (Option.some.inj (hd.symm.trans hf))

/-- A valid geometry has a scanline (R74). -/
theorem geometry_vt_pos {c : Config} {crtc : Crtc} {ctrl : Word} (h : (geometry c crtc ctrl).valid = true) :
    0 < (geometry c crtc ctrl).vt := by
  obtain ⟨-, hvt, -⟩ := (geometry_valid_iff c crtc ctrl).mp h
  exact hvt

/-! ### What each operation needs to keep the invariant (R126) -/

namespace Inv

variable {s : State}

/-- A timer may be stopped at any time (R123). -/
theorem stop (hs : Inv s) (k : TimerKind) : Inv (s.arm k none) := by
  cases k with
  | video => exact { hs with dueFuture := ⟨nofun, hs.dueFuture.2⟩, videoValid := fun harmed => absurd rfl harmed }
  | sound => exact { hs with dueFuture := ⟨hs.dueFuture.1, nofun⟩, soundPositive := fun harmed => absurd rfl harmed }

/-- The video timer is started by the line time, which only a valid geometry has, and then it is positive (R76). -/
theorem start_video (hs : Inv (s.arm .video none)) : Inv (s.arm .video (s.geo.tLine.map (s.now + ·))) := by
  have hexact : s.geo = geometry s.cfg s.crtc s.ctrl := hs.geoExact
  exact { hs with
    dueFuture := ⟨fun d hd => by
      obtain ⟨len, hlen, rfl⟩ := Option.map_eq_some_iff.mp hd
      rw [hexact] at hlen
      exact le_add_of_nonneg_right (geometry_tLine_pos hlen).le, hs.dueFuture.2⟩
    videoValid := fun harmed => by
      rw [arm_video_dueVideo, ne_eq, Option.map_eq_none_iff, hexact, geometry_tLine_eq_none_iff, ← hexact] at harmed
      exact Bool.eq_true_of_not_eq_false harmed }

/-- The sound timer is started by a positive period (R118, R132). -/
theorem start_sound (hs : Inv (s.arm .sound none)) (hpos : 0 < soundPeriod s.cfg s.sfr) :
    Inv (s.arm .sound (some (s.now + soundPeriod s.cfg s.sfr))) :=
  { hs with
    dueFuture := ⟨hs.dueFuture.1, fun _ hd => Option.some.inj hd ▸ le_add_of_nonneg_right hpos.le⟩
    soundPositive := fun _ => hpos }

/-- `sound_refresh` starts or stops the timer by the sign of the period, so that the timer's state before it does not matter. -/
theorem soundRefresh (hs : Inv (s.arm .sound none)) : Inv s.soundRefresh := by
  by_cases hpos : 0 < soundPeriod s.cfg s.sfr
  · simpa only [State.soundRefresh, if_pos hpos] using start_sound hs hpos
  · simpa only [State.soundRefresh, if_neg hpos] using hs

/-- The line counter stays below the total of a valid geometry (R31). -/
theorem setVline_mod (hs : Inv s) (n : Nat) : Inv (s.setVline (n % s.geo.vt)) :=
  { hs with
    vlineBound := fun hvalid => by
      rw [setVline_geo, hs.geoExact] at hvalid ⊢
      exact Nat.mod_lt n (geometry_vt_pos hvalid) }

theorem emit (hs : Inv s) (e : Event) : Inv (s.emit e) := { hs with }

theorem answer (hs : Inv s) (r : Reply) : Inv (s.answer r) := { hs with }

theorem setPalidx (hs : Inv s) (x : Byte) : Inv (s.setPalidx x) := { hs with }

theorem setPal (hs : Inv s) (e : Nat) (c : Rgb) : Inv (s.setPal e c) :=
  { hs with palSize := by simpa using hs.palSize }

theorem vramWrite (hs : Inv s) (o : Nat) (b : Byte) : Inv (s.vramWrite o b) :=
  { hs with vramWf := bufWrite_wf hs.vramWf _ o b, vramWithin := bufWrite_within hs.vramWithin o b }

theorem cramWrite (hs : Inv s) (o : Nat) (b : Byte) : Inv (s.cramWrite o b) :=
  { hs with cramWf := bufWrite_wf hs.cramWf _ o b, cramWithin := bufWrite_within hs.cramWithin o b }

/-- A channel may be stored when its gains belong to its pan (R28) and it is silent or active (R121). -/
theorem setDac (hs : Inv s) (c : BitVec 3) {d : DacChannel}
    (hgains : d.gainL = gainLeft s.cfg d.pan ∧ d.gainR = gainRight s.cfg d.pan)
    (hsilent : d.active = false → d.sample = 0 ∧ d.outL = 0 ∧ d.outR = 0) : Inv (s.setDac c d) :=
  { hs with
    gains := fun j => by
      rw [dacRead_setDac]
      split
      · exact hgains
      · exact hs.gains j
    silent := fun j => by
      rw [dacRead_setDac]
      split
      · exact hsilent
      · exact hs.silent j }

theorem updateFlyback (hs : Inv s) : Inv s.updateFlyback := by
  obtain ⟨-, h⟩ | ⟨-, h⟩ := updateFlyback_cases s <;> rw [h]
  · exact hs
  · exact { hs with }

section RegisterWrite

variable {crtc : Crtc} {ctrl : Word} (hcrtc : ∀ k, (crtc.get k).toNat < 2 ^ s.cfg.crtcBits)
  (hctrl : ctrl &&& ctrlMask s.cfg.variant = ctrl)
include hcrtc hctrl

/-- Registers within their widths, their geometry `g`, and the counter inside it (R78, before the video timer is armed). -/
theorem change_geometry (hs : Inv s) {g : Geo} (hg : g = geometry s.cfg crtc ctrl) (history : List (Time × Event)) :
    Inv (State.arm { s with
      crtc := crtc, ctrl := ctrl, geo := g, history := history, vline := if g.valid then s.vline % g.vt else 0 } .video none) :=
  { hs.stop .video with
    crtcMasked := hcrtc
    ctrlMasked := hctrl
    geoExact := hg
    vlineBound := fun (hvalid : g.valid = true) => (if_pos hvalid).trans_lt (Nat.mod_lt s.vline (by
      rw [hg] at hvalid ⊢
      exact geometry_vt_pos hvalid))
    videoValid := fun harmed => absurd rfl harmed }

/-- After a register write `geo_update` makes the geometry exact again, and starts or stops the video timer with it (R78). -/
theorem geoUpdate (hs : Inv s) : Inv (State.geoUpdate { s with crtc := crtc, ctrl := ctrl }) := by
  obtain ⟨hsame, h⟩ | ⟨-, h⟩ := geoUpdate_cases { s with crtc := crtc, ctrl := ctrl } <;> rw [h]
  · exact { hs with crtcMasked := hcrtc, ctrlMasked := hctrl, geoExact := hsame.symm }
  · exact start_video (change_geometry hcrtc hctrl hs rfl _)

end RegisterWrite

/-- The reset event leaves the registers of zero, whose geometry is invalid, and no timer armed (R145). -/
theorem resetEvent (hs : Inv s) : Inv s.resetEvent :=
  have initial : ∀ c, s.resetEvent.dacRead c = DacChannel.initial s.cfg := fun c => Vector.getElem_replicate c.isLt
  { hs with
    crtcMasked := fun k => by simp [State.resetEvent]
    ctrlMasked := BitVec.zero_and
    palSize := List.length_replicate
    gains := fun c => by
      rw [initial]
      exact ⟨rfl, rfl⟩
    silent := fun c _ => by
      rw [initial]
      exact ⟨rfl, rfl, rfl⟩
    geoExact := rfl
    vlineBound := fun hvalid => absurd hvalid (by simp [State.resetEvent, geometry_zero_invalid])
    dueFuture := ⟨nofun, nofun⟩
    videoValid := fun harmed => absurd rfl harmed
    soundPositive := fun harmed => absurd rfl harmed }

/-! ### Every instruction keeps the invariant -/

/-- A sound fire needs an armed sound timer, whose period is positive (R126 (4)); no other instruction needs a premise. -/
theorem exec {i : Instr} {t : State} (hs : Inv s) (harmed : i = .soundFire → s.dueSound ≠ none)
    (h : exec i s = .next t) : Inv t := by
  have hctrl : ∀ x, ctrlField s.cfg.variant x &&& ctrlMask s.cfg.variant = ctrlField s.cfg.variant x := ctrlField_masked _
  cases exec_effect h with
  | hole => exact hs
  | otherVariant => exact hs
  | palette _ e c => exact hs.setPal e c
  | pal8 x => exact (hs.setPal _ _).setPalidx _
  | palidx x => exact hs.setPalidx _
  | stereo c x =>
    rw [stereoRefresh_setDac]
    exact hs.setDac c ⟨rfl, rfl⟩ (hs.silent c)
  | writeDac n x => exact hs.setDac _ (hs.gains (channelArg n)) nofun
  | clearDac n => exact hs.setDac _ (hs.gains (channelArg n)) fun _ => ⟨rfl, rfl, rfl⟩
  | crtc k x =>
    refine geoUpdate (fun j => ?_) hs.ctrlMasked hs
    rw [crtc_get_set]
    split
    · exact crtcField_lt s.cfg x
    · exact hs.crtcMasked j
  | ctrl x => exact geoUpdate hs.crtcMasked (hctrl x) hs
  | ctrlGen2 x => exact ((geoUpdate hs.crtcMasked (hctrl x) hs).stop .sound).soundRefresh
  | sfr x => exact soundRefresh { hs.stop .sound with soundPositive := fun harmed => absurd rfl harmed }
  | vram o b => exact hs.vramWrite _ _
  | cram o b => exact hs.cramWrite _ _
  | answer _ r => exact hs.answer r
  | reset => exact hs.resetEvent
  | videoFire => simpa using start_video (((hs.setVline_mod _).updateFlyback).stop .video)
  | soundFire => exact start_sound ((hs.emit .soundDrq).stop .sound) (hs.soundPositive (harmed rfl))

end Inv

/-! ### Every step keeps the invariant -/

/-- No host call is a sound fire: the rows of a register write are the opcode table's (R9, R61). -/
theorem decodeCall_ne_soundFire (v : Variant) (c : Call) : decodeCall v c ≠ .soundFire := by
  cases c with
  | write a x =>
    intro hfire
    obtain ⟨r, hr, -, -, hmnemonic, -⟩ := everyWriteIsExactlyOneTableRow v a x
    have noFire : ∀ r ∈ opcodeRows, r.mnemonic ≠ "SOUND_FIRE" := by decide
    exact noFire r hr (hmnemonic.symm.trans (congrArg Instr.mnemonic hfire))
  | _ => exact nofun

/-- The state a step's instruction finds: at the step's time no timer is overdue. -/
theorem Inv.prepared {s : State} (hs : Inv s) {time : Time} (hnone : NoneDueBefore s time) (program : List HostStep) (ties : Nat) :
    Inv { s with now := time, program := program, ties := ties } :=
  { hs with dueFuture := hnone }

theorem SpecStep.inv {s t : State} {l : Label} (hs : Inv s) (h : SpecStep s l t) : Inv t := by
  cases h with
  | host c rest n _ _ _ hnone hexec =>
    exact (hs.prepared hnone rest n).exec (fun hfire => absurd hfire (decodeCall_ne_soundFire _ _)) hexec
  | fire k d n _ hd hnone hexec =>
    refine (hs.prepared hnone s.program n).exec (fun hfire => ?_) hexec
    cases k with
    | video => nomatch hfire
    | sound => simp [show s.dueSound = some d from hd]

/-- Settles O10: `stepWith_next_cases` names the call or the timer. -/
theorem everyStepIsAStepOfTheRelation : Obligations.EveryStepIsAStepOfTheRelation := by
  intro choice s t h
  obtain ⟨c, rest, hp, hnow, hnone, hexec⟩ | ⟨k, d, hd, hnone, -, hexec⟩ := stepWith_next_cases h
  · exact ⟨.host, .host c rest _ t hp hnow hnone hexec⟩
  · exact ⟨.fire k, .fire k d _ t hd hnone hexec⟩

/-- Settles O14: a step is one of the relation's (O10), and those keep the invariant (`SpecStep.inv`). -/
theorem everyStepKeepsTheInvariant : Obligations.EveryStepKeepsTheInvariant := by
  intro choice s t hs h
  obtain ⟨l, hstep⟩ := everyStepIsAStepOfTheRelation choice s t h
  exact hstep.inv hs

/-! ### Which step a run takes (R125, log 6) -/

theorem candidates_nodup (s : State) : s.candidates.Nodup := List.Nodup.filter _ (by decide)

theorem candidates_eq_singleton {s : State} {l : Label} (hl : l ∈ s.candidates) (honly : ∀ m ∈ s.candidates, m = l) :
    s.candidates = [l] := by
  refine List.perm_singleton.mp ((List.perm_ext_iff_of_nodup (candidates_nodup s) (List.nodup_singleton l)).mpr fun m => ?_)
  rw [List.mem_singleton]
  exact ⟨honly m, fun hm => hm ▸ hl⟩

/-- A due timer may fire unless the fire would pass an enabled call (log 6). -/
theorem fire_mem_candidates_of_le {s : State} {k : TimerKind} {d : Time} (hd : s.due k = some d) (hnone : NoneDueBefore s d)
    (hcall : ∀ h rest, s.program = h :: rest → s.now ≤ h.time → d ≤ h.time) : .fire k ∈ s.candidates := by
  refine (fire_mem_candidates s k).mpr ⟨⟨d, hd, hnone⟩, Bool.eq_false_iff.mpr fun hbefore => ?_⟩
  obtain ⟨h, rest, e, hp, he, henabled, hlt⟩ := (hostBefore_iff s k).mp hbefore
  obtain rfl : d = e := Option.some.inj (hd.symm.trans he)
  exact hlt.not_ge (hcall h rest hp ((hostEnabled_iff s h.time).mp henabled).1)

/-! ### A step fires the timer that is due (R125 (b), R129) -/

section TimerDue

variable {s : State} {k : TimerKind} {d : Time} (hd : s.due k = some d)
  (hfirst : ∀ j e, j ≠ k → s.due j = some e → d < e)
include hd

/-- The next call is too late to be taken before the fire, or overdue. -/
theorem host_not_mem_candidates (hcall : ∀ h rest, s.program = h :: rest → d < h.time ∨ h.time < s.now) :
    .host ∉ s.candidates := by
  intro hmem
  obtain ⟨h, rest, hp, hnow, hnone⟩ := (host_mem_candidates s).mp hmem
  obtain hbefore | hover := hcall h rest hp
  · exact hbefore.not_ge (noneDueBefore_iff.mp hnone k d hd)
  · exact hover.not_ge hnow

include hfirst

theorem noneDueBefore_of_first : NoneDueBefore s d := by
  refine noneDueBefore_iff.mpr fun j e he => ?_
  by_cases hj : j = k
  · subst hj
    exact (Option.some.inj (hd.symm.trans he)).le
  · exact (hfirst j e hj he).le

theorem candidates_eq_fire (hcall : ∀ h rest, s.program = h :: rest → d < h.time ∨ h.time < s.now) :
    s.candidates = [.fire k] := by
  have notHost := host_not_mem_candidates hd hcall
  refine candidates_eq_singleton ?_ fun m hm => ?_
  · exact fire_mem_candidates_of_le hd (noneDueBefore_of_first hd hfirst) fun h rest hp hnow =>
      (hcall h rest hp).elim le_of_lt fun hover => absurd hnow hover.not_ge
  · cases m with
    | host => exact absurd hm notHost
    | fire j =>
      by_contra hj
      obtain ⟨⟨e, he, hnone⟩, -⟩ := (fire_mem_candidates s j).mp hm
      exact (hfirst j e (fun hjk => hj (congrArg _ hjk)) he).not_ge (noneDueBefore_iff.mp hnone k d hd)

end TimerDue

/-- Settles O8: the fire is the only candidate, so a step takes it under any choice and counts no tie. -/
theorem stepFiresTheTimerThatIsDue : Obligations.StepFiresTheTimerThatIsDue := by
  intro s k d hd hfirst hcall
  have only : s.candidates = [.fire k] := candidates_eq_fire hd hfirst hcall
  rw [step, stepWith_of_single only, takeStep_fire hd, only, tiesAfter]
  cases k <;> rfl

/-! ### A loaded write runs next (log 5) -/

/-- The 64 bits of an address and a value are read back as that write (log 9). -/
theorem writeOfFrame_frameOfBits (a x : Word) :
    writeOfFrame (frameOfBits 64 (a.toNat + 2 ^ 32 * x.toNat)) = .write a x := by
  have ha := a.isLt
  have hx := x.isLt
  simp only [writeOfFrame, frameOfBits, Call.write.injEq]
  constructor
  · apply BitVec.eq_of_toNat_eq
    rw [BitVec.extractLsb'_toNat, BitVec.toNat_ofNat, Nat.shiftRight_zero]
    omega
  · apply BitVec.eq_of_toNat_eq
    rw [BitVec.extractLsb'_toNat, BitVec.toNat_ofNat, Nat.shiftRight_eq_div_pow]
    omega

/-- Settles O9: the loaded call is at `now`, so `stepRunsTheDecodedCall` (O7) takes it, and the call off the program again. -/
theorem loadedWriteRunsNext : Obligations.LoadedWriteRunsNext := by
  intro s a x hnone
  have hstep := stepRunsTheDecodedCall (s.withFetchWord 64 (a.toNat + 2 ^ 32 * x.toNat)) _ s.program rfl le_rfl hnone
  rw [writeOfFrame_frameOfBits] at hstep
  exact hstep

/-! ### Enabled steps are taken (R125, R127) -/

/-- Every instruction answers a next state (R134). -/
theorem exec_total (i : Instr) (s : State) : ∃ t, exec i s = .next t := by
  cases i with
  | ctrl x => exact ⟨_, exec_ctrl x s⟩
  | pal8 x =>
    by_cases hv : s.cfg.variant = .gen2
    · exact ⟨_, exec_pal8_of_gen2 hv x⟩
    · exact ⟨_, exec_pal8_of_ne_gen2 hv x⟩
  | palidx x =>
    by_cases hv : s.cfg.variant = .gen2
    · exact ⟨_, exec_palidx_of_gen2 hv x⟩
    · exact ⟨_, exec_palidx_of_ne_gen2 hv x⟩
  | _ => exact ⟨_, rfl⟩

theorem exists_stepWith_of_mem {s : State} {l : Label} (hl : l ∈ s.candidates) : ∃ n, stepWith n s = takeStep l s := by
  obtain ⟨n, hn⟩ := exists_pickLabel hl
  exact ⟨n, by rw [stepWith, hn]⟩

theorem exists_takeStep_next {s : State} {l : Label} (hl : l ∈ s.candidates) : ∃ t, takeStep l s = .next t := by
  cases l with
  | host =>
    obtain ⟨c, rest, hp, -, -⟩ := (host_mem_candidates s).mp hl
    rw [takeStep_host hp]
    exact exec_total _ _
  | fire k =>
    obtain ⟨⟨d, hd, -⟩, -⟩ := (fire_mem_candidates s k).mp hl
    rw [takeStep_fire hd]
    exact exec_total _ _

/-- A step goes on where a run has something to take, and there only. -/
theorem stepWith_goes_on_iff {n : Nat} {s : State} : (∃ t, stepWith n s = .next t) ↔ s.candidates ≠ [] := by
  constructor
  · rintro ⟨t, h⟩ hnil
    simp [stepWith, hnil, pickLabel] at h
  · intro hne
    obtain ⟨hnil, -⟩ | ⟨l, hl, h⟩ := stepWith_cases n s
    · exact absurd hnil hne
    · rw [h]
      exact exists_takeStep_next hl

/-- Settles O11: both kinds of step are candidates (`host_mem_candidates`, `fire_mem_candidates_of_le`), and each candidate is taken
under some choice. -/
theorem everyOrderOfEqualTimesIsAdmitted : Obligations.EveryOrderOfEqualTimesIsAdmitted := by
  refine fun s => ⟨fun h rest hp hnow hnone => ?_, fun k d hd hnone hcall => ?_⟩
  · obtain ⟨n, hn⟩ := exists_stepWith_of_mem ((host_mem_candidates s).mpr ⟨h, rest, hp, hnow, hnone⟩)
    exact ⟨n, _, hn.trans (takeStep_host hp)⟩
  · obtain ⟨n, hn⟩ := exists_stepWith_of_mem (fire_mem_candidates_of_le hd hnone hcall)
    exact ⟨n, _, hn.trans (takeStep_fire hd)⟩

/-- Where the relation has a step a run has one to take: a fire that would pass a call by leaves that call. -/
theorem candidates_ne_nil_of_specStep {s t : State} {l : Label} (h : SpecStep s l t) : s.candidates ≠ [] := by
  cases h with
  | host c rest n _ hp hnow hnone _ => exact List.ne_nil_of_mem ((host_mem_candidates s).mpr ⟨c, rest, hp, hnow, hnone⟩)
  | fire k d n _ hd hnone _ =>
    cases hbefore : s.hostBefore k with
    | false => exact List.ne_nil_of_mem ((fire_mem_candidates s k).mpr ⟨⟨d, hd, hnone⟩, hbefore⟩)
    | true =>
      obtain ⟨c, rest, -, hp, -, henabled, -⟩ := (hostBefore_iff s k).mp hbefore
      exact List.ne_nil_of_mem ((host_mem_candidates s).mpr ⟨c, rest, hp, (hostEnabled_iff s c.time).mp henabled⟩)

/-- With no timer armed and no call but an overdue one, a step stops (log 7). -/
theorem step_of_stuck {s : State} (hvideo : s.dueVideo = none) (hsound : s.dueSound = none)
    (hcall : ∀ h rest, s.program = h :: rest → h.time < s.now) : step s = .fault s.stuckReason := by
  have stuck : s.candidates = [] := by
    refine List.eq_nil_iff_forall_not_mem.mpr fun l hl => ?_
    cases l with
    | host =>
      obtain ⟨h, rest, hp, hnow, -⟩ := (host_mem_candidates s).mp hl
      exact (hcall h rest hp).not_ge hnow
    | fire k =>
      obtain ⟨⟨d, hd, -⟩, -⟩ := (fire_mem_candidates s k).mp hl
      cases k with
      | video => nomatch hvideo.symm.trans hd
      | sound => nomatch hsound.symm.trans hd
  rw [step, stepWith, stuck, pickLabel]

/-- Settles O12: a step that goes on is one of the relation's (O10), and where the relation has a step there is a candidate
(`candidates_ne_nil_of_specStep`); the two stops are `step_of_stuck`. -/
theorem stepStopsOnlyWhereNoStepIsEnabled : Obligations.StepStopsOnlyWhereNoStepIsEnabled := by
  refine fun s => ⟨⟨fun ⟨t, h⟩ => ?_, fun ⟨_, _, h⟩ => stepWith_goes_on_iff.mpr (candidates_ne_nil_of_specStep h)⟩,
    fun hp hvideo hsound => ?_, fun h rest hp hover hvideo hsound => ?_⟩
  · obtain ⟨l, hl⟩ := everyStepIsAStepOfTheRelation _ s t h
    exact ⟨l, t, hl⟩
  · rw [step_of_stuck hvideo hsound (by simp [hp]), State.stuckReason, hp]
  · rw [step_of_stuck hvideo hsound (by simpa [hp] using hover), State.stuckReason, hp]

/-! ### Events and timer fires (R124, R130 to R132, R137) -/

/-- Settles O17: the step's instruction emits at most one event, stamped with the time the step has set (`exec_history`). -/
theorem aStepEmitsAtMostOneEvent : Obligations.AStepEmitsAtMostOneEvent := by
  intro choice s t h
  obtain ⟨_, _, -, -, -, hexec⟩ | ⟨_, _, -, -, -, hexec⟩ := stepWith_next_cases h <;>
  · rw [(exec_sameFrame hexec).now]
    exact exec_history hexec

/-- The line's update as one record: an edge is emitted when the line changes (R131). -/
theorem updateFlyback_eq (s : State) :
    s.updateFlyback = { s with
      flyback := flybackFn s.geo s.vline
      history := if flybackFn s.geo s.vline = s.flyback then s.history
        else s.history ++ [(s.now, .vblankEdge (flybackFn s.geo s.vline))] } := by
  obtain ⟨hsame, h⟩ | ⟨hchanged, h⟩ := updateFlyback_cases s
  · rw [h, if_pos hsame, hsame]
  · rw [h, if_neg hchanged]

/-- Settles O54: the next line's `updateFlyback_eq`, and the line time of the valid geometry. -/
theorem videoFireStartsTheNextScanline : Obligations.VideoFireStartsTheNextScanline := by
  intro s d _ hline
  refine ⟨_, _, flybackFn s.geo ((s.vline + 1) % s.geo.vt), rfl, flybackFn_iff _ _, rfl, ?_⟩
  rw [updateFlyback_eq, hline]
  rfl

/-- Settles O55: the handler's two operations, with the period written out (R115). -/
theorem soundFireEmitsOneDrq : Obligations.SoundFireEmitsOneDrq := fun _ => rfl

/-! ### Runs of the machine are runs of the relation (R128) -/

/-- Every step of a machine's run is one of the relation's (O10). -/
theorem programRun_of_runProgram {choice : Nat → Nat} {k : Nat} {s t : State} (h : runProgram choice k s = .ended t) :
    ProgramRun s t := by
  induction k generalizing s with
  | zero =>
    obtain ⟨hp, rfl⟩ | ⟨_, _, hk, -⟩ := runProgram_ended_cases h
    · exact .ended t hp
    · cases hk
  | succ k ih =>
    obtain ⟨hp, rfl⟩ | ⟨j, u, hk, hp, hstep, hrest⟩ := runProgram_ended_cases h
    · exact .ended t hp
    · obtain rfl : k = j := Nat.succ.inj hk
      obtain ⟨l, hl⟩ := everyStepIsAStepOfTheRelation _ s u hstep
      exact .step s u t l hp hl (ih hrest)

/-! ### A step of the relation, with the count of ties aside (log 6) -/

/-- Time never runs backwards (R34). -/
theorem SpecStep.now_le {s t : State} {l : Label} (hs : Inv s) (h : SpecStep s l t) : s.now ≤ t.now := by
  cases h with
  | host c rest n _ _ hnow _ hexec =>
    rw [(exec_sameFrame hexec).now]
    exact hnow
  | fire k d n _ hd _ hexec =>
    rw [(exec_sameFrame hexec).now]
    exact hs.now_le_due hd

/-- The next call of a run's program is not overdue, or time would have to run backwards for the run to take it. -/
theorem ProgramRun.now_le {s t : State} (h : ProgramRun s t) (hs : Inv s) {c : HostStep} {rest : List HostStep}
    (hp : s.program = c :: rest) : s.now ≤ c.time := by
  induction h with
  | ended s hnil => simp [hp] at hnil
  | step s u t l _ hstep _ ih =>
    cases hstep with
    | host c' rest' n _ hp' hnow _ _ =>
      obtain ⟨rfl, -⟩ := List.cons.inj (hp.symm.trans hp')
      exact hnow
    | fire k d n _ hd hnone hexec =>
      have hfire : SpecStep s (.fire k) u := .fire k d n u hd hnone hexec
      exact (hfire.now_le hs).trans (ih (hfire.inv hs) ((exec_sameFrame hexec).program.trans hp))

/-- A step of a run passes no call by, so that the machine may take it (log 6). -/
theorem SpecStep.mem_candidates {s t u : State} {l : Label} (h : SpecStep s l t) (hs : Inv s) (hrun : ProgramRun t u) :
    l ∈ s.candidates := by
  have ht : Inv t := h.inv hs
  cases h with
  | host c rest n _ hp hnow hnone _ => exact (host_mem_candidates s).mpr ⟨c, rest, hp, hnow, hnone⟩
  | fire k d n _ hd hnone hexec =>
    have hf := exec_sameFrame hexec
    refine fire_mem_candidates_of_le hd hnone fun c rest hp _ => ?_
    calc d = t.now := hf.now.symm
      _ ≤ c.time := hrun.now_le ht (hf.program.trans hp)

/-- A step of the relation is the machine's step of that kind, which counts its ties. -/
theorem SpecStep.takeStep {s t : State} {l : Label} (h : SpecStep s l t) :
    takeStep l s = .next { t with ties := tiesAfter s.ties s.candidates } := by
  cases h with
  | host c rest n _ hp _ _ hexec =>
    rw [takeStep_host hp]
    exact exec_with_ties _ hexec
  | fire k d n _ hd _ hexec =>
    rw [takeStep_fire hd]
    exact exec_with_ties _ hexec

theorem SpecStep.with_ties {s t : State} {l : Label} (h : SpecStep s l t) (n : Nat) : SpecStep { s with ties := n } l t := by
  cases h with
  | host c rest m _ hp hnow hnone hexec => exact .host c rest m t hp hnow hnone hexec
  | fire k d m _ hd hnone hexec => exact .fire k d m t hd hnone hexec

theorem Inv.with_ties {s : State} (hs : Inv s) (n : Nat) : Inv { s with ties := n } := { hs with }

/-! ### Runs of the relation are runs of the machine under some choices (R128) -/

theorem le_tiesAfter (n : Nat) (ls : List Label) : n ≤ tiesAfter n ls := by
  match ls with
  | [] => exact le_rfl
  | [_] => exact le_rfl
  | _ :: _ :: _ => exact n.le_succ

theorem ties_le_of_stepWith {n : Nat} {s t : State} (h : stepWith n s = .next t) : s.ties ≤ t.ties := by
  obtain ⟨_, _, -, -, -, hexec⟩ | ⟨_, _, -, -, -, hexec⟩ := stepWith_next_cases h <;>
  · rw [(exec_sameFrame hexec).ties]
    exact le_tiesAfter _ _

/-- A run looks at the choices for the ties still to come only. -/
theorem runProgram_congr {f g : Nat → Nat} {k : Nat} {s : State} (h : ∀ n, s.ties ≤ n → f n = g n) :
    runProgram f k s = runProgram g k s := by
  induction k generalizing s with
  | zero => rfl
  | succ k ih =>
    rw [runProgram, runProgram, h s.ties le_rfl]
    cases s.program with
    | nil => rfl
    | cons c rest =>
      cases hstep : stepWith (g s.ties) s with
      | next t => exact ih fun n hn => h n ((ties_le_of_stepWith hstep).trans hn)
      | fault r => rfl
      | refused r => rfl

/-- Choices that take the candidate now and go on as given. -/
theorem exists_choice {s : State} {l : Label} (hl : l ∈ s.candidates) (g : Nat → Nat) :
    ∃ f : Nat → Nat, stepWith (f s.ties) s = takeStep l s ∧ ∀ n, tiesAfter s.ties s.candidates ≤ n → f n = g n := by
  match hc : s.candidates with
  | [] => simp [hc] at hl
  | [m] =>
    obtain rfl : l = m := by simpa [hc] using hl
    exact ⟨g, stepWith_of_single hc _, fun _ _ => rfl⟩
  | _ :: _ :: _ =>
    obtain ⟨n, hn⟩ := exists_stepWith_of_mem hl
    refine ⟨Function.update g s.ties n, by rw [Function.update_self, hn], fun m hm => Function.update_of_ne ?_ _ _⟩
    rw [tiesAfter] at hm
    omega

/-- An enabled step and a run from where it leads make a run. -/
theorem exists_runProgram_succ {s u : State} {l : Label} (hstep : SpecStep s l u) (hl : l ∈ s.candidates) (hp : s.program ≠ [])
    (g : Nat → Nat) (k : Nat) :
    ∃ f, runProgram f (k + 1) s = runProgram g k { u with ties := tiesAfter s.ties s.candidates } := by
  obtain ⟨f, hf, hfg⟩ := exists_choice hl g
  exact ⟨f, (runProgram_of_next hp (hf.trans hstep.takeStep)).trans (runProgram_congr hfg)⟩

/-- A run of the relation is one of the machine's, from whatever count of ties. -/
theorem exists_runProgram_of_programRun {s t : State} (hrun : ProgramRun s t) (hs : Inv s) (n : Nat) :
    ∃ choice k m, runProgram choice k { s with ties := n } = .ended { t with ties := m } := by
  induction hrun generalizing n with
  | ended s hp => exact ⟨id, 0, n, runProgram_of_nil hp⟩
  | step s u t l hp hstep hrest ih =>
    have hstep' := hstep.with_ties n
    obtain ⟨g, k, m, hg⟩ := ih (hstep.inv hs) (tiesAfter n (State.candidates { s with ties := n }))
    obtain ⟨f, hf⟩ := exists_runProgram_succ hstep' (hstep'.mem_candidates (hs.with_ties n) hrest) hp g k
    exact ⟨f, k + 1, m, hf.trans hg⟩

/-- Settles O59: along a run of the machine each step is one of the relation's (`programRun_of_runProgram`), and along a run of the
relation the choices are put together step by step (`exists_runProgram_of_programRun`). -/
theorem runsAreTheRunsOfTheRelation : Obligations.RunsAreTheRunsOfTheRelation :=
  ⟨fun _ _ _ _ => programRun_of_runProgram, fun s _ hs hrun => exists_runProgram_of_programRun hrun hs s.ties⟩

/-! ### Runs without ties agree (R128) -/

/-- With at most one candidate the choice does not matter. -/
theorem stepWith_eq_of_unique {s : State} (h : ∀ l ∈ s.candidates, ∀ m ∈ s.candidates, l = m) (n m : Nat) :
    stepWith n s = stepWith m s := by
  obtain ⟨hnil, hn⟩ | ⟨l, hl, hn⟩ := stepWith_cases n s <;> obtain ⟨hnil', hm⟩ | ⟨l', hl', hm⟩ := stepWith_cases m s
  · rw [hn, hm]
  · simp [hnil] at hl'
  · simp [hnil'] at hl
  · rw [hn, hm, h l hl l' hl']

section TimesApart

variable {s : State} {c : HostStep} {rest : List HostStep} (hp : s.program = c :: rest) (hnow : s.now ≤ c.time)
  (hduty : DutyOffDueTimes s c)
include hp hnow hduty

/-- A fire that a run may take comes strictly before the next call, for no timer is due at that call's time. -/
theorem lt_of_fire_mem_candidates {k : TimerKind} (hk : .fire k ∈ s.candidates) :
    ∃ d, s.due k = some d ∧ NoneDueBefore s d ∧ d < c.time := by
  obtain ⟨⟨d, hd, hnone⟩, hbefore⟩ := (fire_mem_candidates s k).mp hk
  refine ⟨d, hd, hnone, (fire_le_of_not_hostBefore hp hnow hd hnone hbefore).lt_of_ne ?_⟩
  rintro rfl
  cases k with
  | video => exact hduty.1 hd
  | sound => exact hduty.2 hd

/-- Under R128's two conditions a run never has more than one step to take. -/
theorem candidates_unique (hapart : ∀ d, s.dueVideo = some d → s.dueSound = some d → ¬ d < c.time) :
    ∀ l ∈ s.candidates, ∀ m ∈ s.candidates, l = m := by
  have noCall : ∀ k, .fire k ∈ s.candidates → .host ∉ s.candidates := by
    intro k hk hhost
    obtain ⟨d, hd, -, hlt⟩ := lt_of_fire_mem_candidates hp hnow hduty hk
    obtain ⟨c', _, hp', -, hnone⟩ := (host_mem_candidates s).mp hhost
    obtain ⟨rfl, -⟩ := List.cons.inj (hp.symm.trans hp')
    exact hlt.not_ge (noneDueBefore_iff.mp hnone k d hd)
  have notBoth : .fire .video ∈ s.candidates → .fire .sound ∉ s.candidates := by
    intro hvideo hsound
    obtain ⟨d, hd, hdnone, hlt⟩ := lt_of_fire_mem_candidates hp hnow hduty hvideo
    obtain ⟨e, he, henone, -⟩ := lt_of_fire_mem_candidates hp hnow hduty hsound
    obtain rfl : d = e := (hdnone.2 e he).antisymm (henone.1 d hd)
    exact hapart d hd he hlt
  intro l hl m hm
  match l, m, hl, hm with
  | .host, .host, _, _ => rfl
  | .host, .fire k, hl, hm => exact absurd hl (noCall k hm)
  | .fire k, .host, hl, hm => exact absurd hm (noCall k hl)
  | .fire .video, .fire .video, _, _ => rfl
  | .fire .video, .fire .sound, hl, hm => exact absurd hm (notBoth hl)
  | .fire .sound, .fire .video, hl, hm => exact absurd hl (notBoth hm)
  | .fire .sound, .fire .sound, _, _ => rfl

end TimesApart

/-- Under R128's two conditions the choices do not matter. -/
theorem runProgram_eq_of_timesApart {f : Nat → Nat} (g : Nat → Nat) {k : Nat} {s : State} (hr : ProgramReady s)
    (hapart : TimesApart f k s) : runProgram f k s = runProgram g k s := by
  induction k generalizing s with
  | zero => rfl
  | succ k ih =>
    cases hp : s.program with
    | nil => rw [runProgram_of_nil hp, runProgram_of_nil hp]
    | cons c rest =>
      obtain ⟨hduty, htimers, hnext⟩ := hapart c rest hp
      have unique := candidates_unique hp (hr.ahead c (by simp [hp])) hduty htimers
      simp only [runProgram, hp]
      rw [stepWith_eq_of_unique unique (g s.ties) (f s.ties)]
      cases hstep : stepWith (f s.ties) s with
      | next t => exact ih (hr.stepWith (by simp [hp]) hstep) (hnext t hstep)
      | fault r => rfl
      | refused r => rfl

/-- Settles O13: without ties the choices do not matter (`runProgram_eq_of_timesApart`), and a run of the relation is one of the
machine's (O59), hence the one under `f`. -/
theorem tieFreeRunsAgree : Obligations.TieFreeRunsAgree := by
  refine ⟨fun f g k s => runProgram_eq_of_timesApart g, fun f s t u hs hr hapart ht hu => ⟨u.ties, ?_⟩⟩
  have onF : ∀ {r}, ProgramRun s r → ∃ k n, runProgram f k s = .ended { r with ties := n } := by
    intro r hrun
    obtain ⟨g, k, n, h⟩ := runsAreTheRunsOfTheRelation.2 s r hs hrun
    exact ⟨k, n, (runProgram_eq_of_timesApart g hr (hapart k)).trans h⟩
  obtain ⟨k, n, hk⟩ := onF ht
  obtain ⟨j, m, hj⟩ := onF hu
  have same := (runProgram_ended_mono hj k).symm.trans (Nat.add_comm j k ▸ runProgram_ended_mono hk j)
  exact congrArg (fun r : State => { r with ties := u.ties }) (RunStatus.ended.inj same)

/-! ### A run ends with the last call (R128) -/

/-- A step keeps the program, or takes its first call off. -/
theorem program_of_stepWith {n : Nat} {s t : State} (h : stepWith n s = .next t) :
    t.program = s.program ∨
      ∃ c m, s.program = c :: t.program ∧
        exec (decodeCall s.cfg.variant c.call) { s with now := c.time, program := t.program, ties := m } = .next t := by
  obtain ⟨c, rest, hp, -, -, hexec⟩ | ⟨_, _, -, -, -, hexec⟩ := stepWith_next_cases h
  · obtain rfl : t.program = rest := (exec_sameFrame hexec).program
    exact .inr ⟨c, _, hp, hexec⟩
  · exact .inl (exec_sameFrame hexec).program

/-- From `s` the machine reaches a state with the call alone left to make, and taking that call then leads to `t`. -/
def EndsWithCall (choice : Nat → Nat) (s t : State) (c : HostStep) : Prop :=
  ∃ m r n, runWith choice m s = .next r ∧ r.program = [c] ∧ t.now = c.time ∧
    exec (decodeCall r.cfg.variant c.call) { r with now := c.time, program := [], ties := n } = .next t

theorem EndsWithCall.of_step {choice : Nat → Nat} {s u t : State} {c : HostStep} (h : EndsWithCall choice u t c)
    (hstep : stepWith (choice s.ties) s = .next u) : EndsWithCall choice s t c := by
  obtain ⟨m, r, n, hm, hr⟩ := h
  refine ⟨m + 1, r, n, ?_, hr⟩
  rw [runWith, hstep]
  exact hm

/-- The step that leaves the program empty is the last call's, and no step comes after it. -/
theorem endsWithCall_of_ended {choice : Nat → Nat} {k : Nat} {s t : State} (h : runProgram choice k s = .ended t) {c : HostStep}
    (hlast : s.program.getLast? = some c) : EndsWithCall choice s t c := by
  induction k generalizing s with
  | zero =>
    obtain ⟨hp, -⟩ | ⟨_, _, hk, -⟩ := runProgram_ended_cases h
    · simp [hp] at hlast
    · cases hk
  | succ k ih =>
    obtain ⟨hp, -⟩ | ⟨j, u, hk, -, hstep, hrest⟩ := runProgram_ended_cases h
    · simp [hp] at hlast
    obtain rfl : k = j := Nat.succ.inj hk
    obtain hsame | ⟨c', m, hp, hexec⟩ := program_of_stepWith hstep
    · exact (ih hrest (hsame ▸ hlast)).of_step hstep
    · cases hu : u.program with
      | cons d rest =>
        rw [hp, hu, List.getLast?_cons_cons, ← hu] at hlast
        exact (ih hrest hlast).of_step hstep
      | nil =>
        rw [hu] at hp hexec
        obtain rfl : c' = c := by simpa [hp] using hlast
        obtain rfl : u = t := RunStatus.ended.inj ((runProgram_of_nil hu).symm.trans hrest)
        exact ⟨0, s, m, rfl, hp, (exec_sameFrame hexec).now, hexec⟩

theorem ProgramRun.program_eq_nil {s t : State} (h : ProgramRun s t) : t.program = [] := by
  induction h with
  | ended _ hp => exact hp
  | step _ _ _ _ _ _ _ ih => exact ih

/-! ### Every program has a run that ends (R127, R128) -/

/-- What a fire of the timer adds to its due time (R131, R132). -/
def State.period (s : State) : TimerKind → Time
  | .video => s.geo.tLine.getD 0
  | .sound => soundPeriod s.cfg s.sfr

/-- An armed video timer's geometry has a line time (R126 (3)). -/
theorem Inv.exists_tLine {s : State} (hs : Inv s) (harmed : s.dueVideo ≠ none) : ∃ len, s.geo.tLine = some len ∧ 0 < len := by
  have hvalid := hs.videoValid harmed
  cases hline : s.geo.tLine with
  | none =>
    rw [hs.geoExact, geometry_tLine_eq_none_iff, ← hs.geoExact] at hline
    simp [hline] at hvalid
  | some len => exact ⟨len, rfl, geometry_tLine_pos (hs.geoExact ▸ hline)⟩

theorem Inv.period_pos {s : State} (hs : Inv s) {k : TimerKind} {d : Time} (hd : s.due k = some d) : 0 < s.period k := by
  have harmed : s.due k ≠ none := by simp [hd]
  cases k with
  | video =>
    obtain ⟨len, hline, hpos⟩ := hs.exists_tLine harmed
    simpa [State.period, hline] using hpos
  | sound => exact hs.soundPositive harmed

/-- A fire arms its own timer one period later, and changes no period. -/
theorem fire_due {s t : State} (hs : Inv s) {k : TimerKind} {d : Time} {n : Nat} (hd : s.due k = some d)
    (h : exec (dispatchTimer k) { s with now := d, ties := n } = .next t) (j : TimerKind) :
    t.period j = s.period j ∧ t.due j = if j = k then some (d + s.period k) else s.due j := by
  cases k with
  | video =>
    obtain ⟨len, hline, -⟩ := hs.exists_tLine (by simp [show s.dueVideo = some d from hd])
    cases h
    cases j <;> simp [State.period, State.due, hline]
  | sound =>
    cases h
    cases j <;> simp [State.period, State.due]

/-- How many fires a timer has up to the time `limit`, being due at `due` and then once in every period. -/
def firesUntil (limit : Time) (due : Option Time) (period : Time) : Nat :=
  match due with
  | none => 0
  | some d => ⌊(limit - d) / period + 1⌋₊

theorem firesUntil_fire {limit d period : Time} (hpos : 0 < period) (hle : d ≤ limit) :
    firesUntil limit (some (d + period)) period < firesUntil limit (some d) period := by
  have later : (limit - (d + period)) / period + 1 = (limit - d) / period := by
    field_simp
    ring
  rw [firesUntil, firesUntil, later, Nat.floor_add_one (div_nonneg (sub_nonneg.mpr hle) hpos.le)]
  exact Nat.lt_succ_self _

/-- How many fires a run has at most before it takes the program's next call. -/
def State.firesLeft (s : State) : Nat :=
  match s.program with
  | [] => 0
  | c :: _ => firesUntil c.time (s.due .video) (s.period .video) + firesUntil c.time (s.due .sound) (s.period .sound)

theorem firesLeft_fire {s t : State} (hs : Inv s) {c : HostStep} {rest : List HostStep} (hp : s.program = c :: rest)
    {k : TimerKind} {d : Time} {n : Nat} (hd : s.due k = some d) (hle : d ≤ c.time)
    (h : exec (dispatchTimer k) { s with now := d, ties := n } = .next t) : t.firesLeft < s.firesLeft := by
  have hp' : t.program = c :: rest := (exec_sameFrame h).program.trans hp
  have fewer := firesUntil_fire (hs.period_pos hd) hle
  obtain ⟨hvideoPeriod, hvideoDue⟩ := fire_due hs hd h .video
  obtain ⟨hsoundPeriod, hsoundDue⟩ := fire_due hs hd h .sound
  simp only [State.firesLeft, hp, hp', hvideoPeriod, hsoundPeriod, hvideoDue, hsoundDue]
  cases k with
  | video => simpa [hd] using fewer
  | sound => simpa [hd] using fewer

/-- A step takes a call off the program, or one of the fires before the next call. -/
theorem stepWith_decreases {n : Nat} {s t : State} (hs : Inv s) (hr : ProgramReady s) (hp : s.program ≠ [])
    (h : stepWith n s = .next t) :
    Prod.Lex (· < ·) (· < ·) (t.program.length, t.firesLeft) (s.program.length, s.firesLeft) := by
  obtain ⟨c, rest, hp', -, -, hexec⟩ | ⟨k, d, hd, hnone, hbefore, hexec⟩ := stepWith_next_cases h
  · refine .left _ _ ?_
    rw [(exec_sameFrame hexec).program, hp']
    exact Nat.lt_succ_self _
  · obtain ⟨c, rest, hp'⟩ := List.exists_cons_of_ne_nil hp
    rw [(exec_sameFrame hexec).program]
    exact .right _ (firesLeft_fire hs hp' hd
      (fire_le_of_not_hostBefore hp' (hr.ahead c (by simp [hp'])) hd hnone hbefore) hexec)

/-- A program that can be run has a step to take: its next call, or the first of the timers due before that call. -/
theorem ProgramReady.candidates_ne_nil {s : State} (hr : ProgramReady s) (hp : s.program ≠ []) : s.candidates ≠ [] := by
  obtain ⟨c, rest, hp⟩ := List.exists_cons_of_ne_nil hp
  by_cases hnone : NoneDueBefore s c.time
  · exact List.ne_nil_of_mem ((host_mem_candidates s).mpr ⟨c, rest, hp, hr.ahead c (by simp [hp]), hnone⟩)
  · obtain ⟨k, d, hd, hlt, hfirst⟩ := exists_first_due hnone
    refine List.ne_nil_of_mem (fire_mem_candidates_of_le hd hfirst fun c' _ hp' _ => ?_)
    obtain ⟨rfl, -⟩ := List.cons.inj (hp.symm.trans hp')
    exact hlt.le

/-- Every run comes to its end: with the fires before the next call it runs out of steps that are no call (`stepWith_decreases`). -/
theorem exists_ended (choice : Nat → Nat) {s : State} (hs : Inv s) (hr : ProgramReady s) :
    ∃ k t, runProgram choice k s = .ended t := by
  by_cases hp : s.program = []
  · exact ⟨0, s, runProgram_of_nil hp⟩
  · obtain ⟨u, hstep⟩ := stepWith_goes_on_iff.mpr (hr.candidates_ne_nil hp)
    obtain ⟨k, t, hend⟩ := exists_ended choice (everyStepKeepsTheInvariant _ s u hs hstep) (hr.stepWith hp hstep)
    exact ⟨k + 1, t, (runProgram_of_next hp hstep).trans hend⟩
termination_by (s.program.length, s.firesLeft)
decreasing_by exact stepWith_decreases hs hr hp hstep

/-- Settles O58: every run comes to its end (`exists_ended`), and an ended run is over at once, or the last call is its last step
(`endsWithCall_of_ended`). -/
theorem runsEndWithTheLastCall : Obligations.RunsEndWithTheLastCall :=
  ⟨fun choice _ => exists_ended choice, fun _ _ _ _ h =>
    ⟨(programRun_of_runProgram h).program_eq_nil, fun hp => (RunStatus.ended.inj ((runProgram_of_nil hp).symm.trans h)).symm,
      fun _ => endsWithCall_of_ended h⟩⟩

end Sys2Proof.Machine

/-! Proofs for 60_exceptions.md: no entry point faults or refuses (R134). -/

namespace Sys2Proof.Machine

/-- Settles O19: `exec` is total (`exec_total`); where it splits on the variant (PAL8, PALIDX, CTRL), each branch goes on. -/
theorem everyEntryPointCompletes : Obligations.EveryEntryPointCompletes := exec_total

end Sys2Proof.Machine

/-! Proofs for 70_reset_and_hazards.md: the reset event (R145) and the order of two register writes (R146). -/

namespace Sys2Proof.Machine

/-! ### The reset event (R145) -/

theorem exec_reset (s : State) : exec .reset s = .next s.resetEvent := rfl

/-- The reset event clears the index latch where there is one (R145). -/
theorem resetEvent_palidx_of_gen2 {s : State} (h : s.cfg.variant = .gen2) : s.resetEvent.palidx = 0 := by
  simp [State.resetEvent, palidxAfterReset, h]

@[simp] theorem resetEvent_dacRead (s : State) (c : BitVec 3) : s.resetEvent.dacRead c = DacChannel.initial s.cfg :=
  Vector.getElem_replicate c.isLt

/-- Settles O56: the index latch alone depends on the variant (`resetEvent_palidx_of_gen2`, `resetEvent_palidx_of_ne`); the cleared
slots give an invalid geometry (`geometry_zero_invalid`). -/
theorem resetLeavesTheResetValues : Obligations.ResetLeavesTheResetValues := by
  intro s
  have slots : ∀ k, s.resetEvent.crtc.get k = 0 := crtc_get_zero
  have colours : ∀ c ∈ s.resetEvent.pal, c = ⟨0, 0, 0⟩ := fun _ => List.eq_of_mem_replicate
  exact ⟨_, exec_reset s, slots, rfl, rfl, resetEvent_palidx_of_gen2, resetEvent_palidx_of_ne, List.length_replicate, colours,
    resetEvent_dacRead s, rfl, geometry_zero_invalid s.cfg 0, rfl, rfl, rfl, rfl, rfl⟩

/-- A latch of 0 stays 0 on every variant. -/
@[simp] theorem palidxAfterReset_zero (v : Variant) : palidxAfterReset v 0#8 = 0#8 := by cases v <;> rfl

/-- Settles O57: the construction holds the reset values, and the index latch is 0 already (`palidxAfterReset_zero`). -/
theorem resetOfAFreshDeviceChangesNothing : Obligations.ResetOfAFreshDeviceChangesNothing := by
  intro c vramInit cramInit
  rw [exec_reset]
  simp [State.resetEvent, State.construct]

/-! ### The order of two register writes (R146) -/

/-- Stores to different slots commute (R21). -/
theorem crtc_set_comm (c : Crtc) {j k : CrtcSlot} (h : j ≠ k) (x y : Word) : (c.set j x).set k y = (c.set k y).set j x := by
  refine crtc_ext fun i => ?_
  simp only [crtc_get_set]
  by_cases hk : i = k
  · have hj : i ≠ j := hk ▸ h.symm
    rw [if_pos hk, if_neg hj, if_pos hk]
  · rw [if_neg hk, if_neg hk]

@[simp] theorem crtcWrite_ctrl (s : State) (k : CrtcSlot) (x : Word) : (s.crtcWrite k x).ctrl = s.ctrl := by
  simp [State.crtcWrite]

@[simp] theorem crtcWrite_cfg (s : State) (k : CrtcSlot) (x : Word) : (s.crtcWrite k x).cfg = s.cfg := by
  simp [State.crtcWrite]

/-- Whatever was cached before, a slot write leaves the geometry of the registers as they then are (R78, R79). -/
theorem crtcWrite_geo (s : State) (k : CrtcSlot) (x : Word) :
    (s.crtcWrite k x).geo = geometry s.cfg (s.crtc.set k (crtcField s.cfg x)) s.ctrl := by
  simp [State.crtcWrite]

@[simp] theorem ctrlWrite_crtc (s : State) (x : Word) : (s.ctrlWrite x).crtc = s.crtc := by
  simp [State.ctrlWrite]

@[simp] theorem ctrlWrite_cfg (s : State) (x : Word) : (s.ctrlWrite x).cfg = s.cfg := by
  simp [State.ctrlWrite]

/-- A control write too leaves the geometry of the registers as they then are (R78, R96). -/
theorem ctrlWrite_geo (s : State) (x : Word) :
    (s.ctrlWrite x).geo = geometry s.cfg s.crtc (ctrlField s.cfg.variant x) := by
  simp [State.ctrlWrite]

/-- Settles O30: the geometry after a write is a function of the registers alone (`crtcWrite_geo`, `ctrlWrite_geo`), and the stores
commute (`crtc_set_comm`; the control word and a slot are different fields). -/
theorem writeOrderLeavesTheSameGeometry : Obligations.WriteOrderLeavesTheSameGeometry := by
  intro j k x y s hjk
  constructor
  case left =>
    have stores := crtc_set_comm s.crtc hjk (crtcField s.cfg x) (crtcField s.cfg y)
    refine ⟨_, _, _, _, exec_crtcInstrOf j x s, exec_crtcInstrOf k y _, exec_crtcInstrOf k y s,
      exec_crtcInstrOf j x _, ?geo, ?crtc, ?ctrl⟩
    case geo => simp [crtcWrite_geo, crtcWrite_crtc, stores]
    case crtc => simp [crtcWrite_crtc, stores]
    case ctrl => simp
  case right =>
    refine ⟨_, _, _, _, exec_crtcInstrOf j x s, exec_ctrl y _, exec_ctrl y s, exec_crtcInstrOf j x _, ?geo, ?crtc, ?ctrl⟩
    case geo => simp [crtcWrite_geo, crtcWrite_crtc, ctrlWrite_geo]
    case crtc => simp [crtcWrite_crtc]
    case ctrl => simp

end Sys2Proof.Machine
